-- ==== Sys2Proof/Word.lean ====
section
/-! DEFINITION. The two value types of the spec (00_scope R4, R5): u8 and u16, and nothing else.
Everything that computes on them stands in the files under Machine/ and in Decode.lean. -/

namespace Sys2Proof

/-- `u8`: data, A, X, Y, SP, SR, and one byte of memory (00_scope R4, R5). -/
abbrev Byte := BitVec 8

/-- `u16`: addresses and PC (00_scope R4, R5). -/
abbrev Word := BitVec 16

end Sys2Proof
end

