-- ==== Sys2Proof/Machine/Bits.lean ====
section
/-! DEFINITION. The byte-order and extension helpers of 00_scope R5 and R6. -/

namespace Sys2Proof

/-- `concat16(hi, lo)`: the u16 `(hi << 8) | lo` (00_scope R5). -/
def concat16 (hi lo : Byte) : Word := hi ++ lo

/-- `v[15:8]` (00_scope R5). -/
def hiByte (v : Word) : Byte := v.extractLsb' 8 8

/-- `v[7:0]` (00_scope R5). -/
def loByte (v : Word) : Byte := v.extractLsb' 0 8

/-- `zext_16(v)` (00_scope R6). -/
def zext16 (v : Byte) : Word := v.setWidth 16

/-- `sext_16(v)` (00_scope R6). -/
def sext16 (v : Byte) : Word := v.signExtend 16

end Sys2Proof
end

