-- ==== Sys2Proof/Config.lean ====
section
/-! DEFINITION. What is fixed for the machine (00_scope R4, 20_memory R41) and the free values.
The spec's OPEN parameters that a model takes as arguments (RESET_SP, DECIMAL_MODE, ON_INVALID)
are `Params`; log 1 says why they are carried by State. -/

namespace Sys2Proof

/-- What one binary or decimal addition returns: the 8-bit result and the flags C, V, N and Z
(42_arithmetic R112, R115). -/
structure AluResult where
  res : Byte
  c : Bool
  v : Bool
  n : Bool
  z : Bool
  deriving DecidableEq, Repr, Inhabited

/-- The OPEN parameter `DECIMAL_MODE` (00_scope R4, 42_arithmetic R115). -/
inductive DecimalMode where
  /-- R115(a): D is ignored. -/
  | binary
  /-- R115(b): the reference algorithms of R116 and R117. -/
  | nmosBcd
  /-- R115(c), the spec's `opaque`: uninterpreted total functions. -/
  | uninterpreted
  deriving DecidableEq, Repr, Inhabited

/-- The driver's policy `ON_INVALID` (00_scope R4, 60_exceptions R201, D11). -/
inductive OnInvalid where
  /-- The default: after a recorded InvalidOpcode the core takes no further step. -/
  | fatal
  /-- The driver goes on; the entry stays in the fault record. -/
  | skip
  deriving DecidableEq, Repr, Inhabited

/-- The OPEN parameters of 00_scope R4 that a rule of the core reads. -/
structure Params where
  /-- `RESET_SP`: the value SP takes at `reset()` (70_reset R230, D5). -/
  resetSp : Byte
  /-- `DECIMAL_MODE` (42_arithmetic R115, D8). -/
  decimalMode : DecimalMode
  /-- `ON_INVALID` (60_exceptions R201, D11). -/
  onInvalid : OnInvalid
  deriving DecidableEq, Repr, Inhabited

namespace Config

/-- FREE VALUE (log 5): `DecimalADC` when `DECIMAL_MODE` is the spec's `opaque`, an uninterpreted
total function of (A, m, C) (42_arithmetic R115(c)). No proof may assume a property of it. -/
opaque decimalAdc : Byte → Byte → Bool → AluResult

/-- FREE VALUE (log 5): `DecimalSBC` when `DECIMAL_MODE` is the spec's `opaque`
(42_arithmetic R115(c)). -/
opaque decimalSbc : Byte → Byte → Bool → AluResult

/-- The NMI vector's low byte address (20_memory R41). -/
def nmiVector : Word := 0xFFFA

/-- The RESET vector's low byte address (20_memory R41). -/
def resetVector : Word := 0xFFFC

/-- The IRQ/BRK vector's low byte address (20_memory R41). -/
def irqVector : Word := 0xFFFE

end Config

end Sys2Proof
end

