-- ==== Sys2Proof/Syntax.lean ====
section
/-! DEFINITION. The instructions: one constructor per mnemonic of spec/opcode_table.json, whose rows
of one mnemonic are that instruction's operand forms (log 12). -/

namespace Sys2Proof

/-- The thirteen addressing modes with the operand bytes each consumes (30_encoding R51, R52;
40_addressing_modes R66-R80). `ll` is the byte after the opcode, `hhll` the little-endian word. -/
inductive Operand where
  | implied
  | accumulator
  | immediate (imm : Byte)
  | zeroPage (ll : Byte)
  | zeroPageX (ll : Byte)
  | zeroPageY (ll : Byte)
  | absolute (hhll : Word)
  | absoluteX (hhll : Word)
  | absoluteY (hhll : Word)
  | indirect (hhll : Word)
  | indirectX (ll : Byte)
  | indirectY (ll : Byte)
  | relative (off : Byte)
  deriving DecidableEq, Repr

/-- The instruction set (30_encoding R53). A mnemonic that takes several modes carries its operand;
which modes are its own is `Instr.wf` (40_addressing_modes R82). -/
inductive Instr where
  -- 41_load_store_transfer
  | lda (o : Operand)
  | ldx (o : Operand)
  | ldy (o : Operand)
  | sta (o : Operand)
  | stx (o : Operand)
  | sty (o : Operand)
  | tax
  | txa
  | tay
  | tya
  | tsx
  | txs
  -- 42_arithmetic
  | adc (o : Operand)
  | sbc (o : Operand)
  -- 43_logic
  | and (o : Operand)
  | ora (o : Operand)
  | eor (o : Operand)
  | bit (o : Operand)
  -- 44_shift_rotate
  | asl (o : Operand)
  | lsr (o : Operand)
  | rol (o : Operand)
  | ror (o : Operand)
  -- 45_inc_dec
  | inc (o : Operand)
  | dec (o : Operand)
  | inx
  | iny
  | dex
  | dey
  -- 46_compare
  | cmp (o : Operand)
  | cpx (o : Operand)
  | cpy (o : Operand)
  -- 47_stack
  | pha
  | pla
  | php
  | plp
  -- 48_control_flow
  | jmp (o : Operand)
  | jsr (target : Word)
  | rts
  | bcc (off : Byte)
  | bcs (off : Byte)
  | beq (off : Byte)
  | bne (off : Byte)
  | bmi (off : Byte)
  | bpl (off : Byte)
  | bvc (off : Byte)
  | bvs (off : Byte)
  -- 49_flags_system
  | clc
  | sec
  | cli
  | sei
  | cld
  | sed
  | clv
  | brk
  | rti
  | nop
  /-- The 105 bytes of 30_encoding R56, the `INVALID` rows (49_flags_system R163). -/
  | invalid (op : Byte)
  deriving DecidableEq, Repr

/-- The operand of an instruction, `implied` where it has none. -/
def Instr.operand : Instr → Operand
  | .lda o | .ldx o | .ldy o | .sta o | .stx o | .sty o => o
  | .adc o | .sbc o | .and o | .ora o | .eor o | .bit o => o
  | .asl o | .lsr o | .rol o | .ror o | .inc o | .dec o => o
  | .cmp o | .cpx o | .cpy o | .jmp o => o
  | .jsr t => .absolute t
  | .bcc d | .bcs d | .beq d | .bne d | .bmi d | .bpl d | .bvc d | .bvs d => .relative d
  | .tax | .txa | .tay | .tya | .tsx | .txs | .inx | .iny | .dex | .dey => .implied
  | .pha | .pla | .php | .plp | .rts => .implied
  | .clc | .sec | .cli | .sei | .cld | .sed | .clv | .brk | .rti | .nop => .implied
  | .invalid _ => .implied

end Sys2Proof
end

