-- ==== Sys2Proof/WellFormed.lean ====
section
/-! DEFINITION. Which operand forms each mnemonic takes (40_addressing_modes R82) and which bytes are
invalid opcodes (30_encoding R56). -/

namespace Sys2Proof

/-- The eight modes of ORA, AND, EOR, ADC, LDA, CMP and SBC (R82). -/
def Operand.isRead : Operand → Bool
  | .immediate _ | .zeroPage _ | .zeroPageX _ | .absolute _ => true
  | .absoluteX _ | .absoluteY _ | .indirectX _ | .indirectY _ => true
  | .implied | .accumulator | .zeroPageY _ | .indirect _ | .relative _ => false

/-- STA: the same modes except Immediate (R82). -/
def Operand.isStore : Operand → Bool
  | .zeroPage _ | .zeroPageX _ | .absolute _ | .absoluteX _ => true
  | .absoluteY _ | .indirectX _ | .indirectY _ => true
  | .implied | .accumulator | .immediate _ | .zeroPageY _ | .indirect _ | .relative _ => false

/-- INC and DEC: the four memory modes of read-modify-write (R82). -/
def Operand.isModify : Operand → Bool
  | .zeroPage _ | .zeroPageX _ | .absolute _ | .absoluteX _ => true
  | .implied | .accumulator | .immediate _ | .zeroPageY _ | .absoluteY _ => false
  | .indirect _ | .indirectX _ | .indirectY _ | .relative _ => false

/-- ASL, LSR, ROL and ROR: those four and Accumulator (R82). -/
def Operand.isShift (o : Operand) : Bool :=
  o.isModify || o == .accumulator

/-- BIT: ZeroPage and Absolute (R82). -/
def Operand.isPlain : Operand → Bool
  | .zeroPage _ | .absolute _ => true
  | .implied | .accumulator | .immediate _ | .zeroPageX _ | .zeroPageY _ | .absoluteX _ => false
  | .absoluteY _ | .indirect _ | .indirectX _ | .indirectY _ | .relative _ => false

/-- CPX and CPY: Immediate, ZeroPage and Absolute (R82). -/
def Operand.isCompareIndex : Operand → Bool
  | .immediate _ | .zeroPage _ | .absolute _ => true
  | .implied | .accumulator | .zeroPageX _ | .zeroPageY _ | .absoluteX _ => false
  | .absoluteY _ | .indirect _ | .indirectX _ | .indirectY _ | .relative _ => false

/-- LDX: Immediate, ZeroPage, ZeroPageY, Absolute and AbsoluteY (R82). -/
def Operand.isLoadX : Operand → Bool
  | .immediate _ | .zeroPage _ | .zeroPageY _ | .absolute _ | .absoluteY _ => true
  | .implied | .accumulator | .zeroPageX _ | .absoluteX _ => false
  | .indirect _ | .indirectX _ | .indirectY _ | .relative _ => false

/-- LDY: Immediate, ZeroPage, ZeroPageX, Absolute and AbsoluteX (R82). -/
def Operand.isLoadY : Operand → Bool
  | .immediate _ | .zeroPage _ | .zeroPageX _ | .absolute _ | .absoluteX _ => true
  | .implied | .accumulator | .zeroPageY _ | .absoluteY _ => false
  | .indirect _ | .indirectX _ | .indirectY _ | .relative _ => false

/-- STX: ZeroPage, ZeroPageY and Absolute (R82). -/
def Operand.isStoreX : Operand → Bool
  | .zeroPage _ | .zeroPageY _ | .absolute _ => true
  | .implied | .accumulator | .immediate _ | .zeroPageX _ | .absoluteX _ | .absoluteY _ => false
  | .indirect _ | .indirectX _ | .indirectY _ | .relative _ => false

/-- STY: ZeroPage, ZeroPageX and Absolute (R82). -/
def Operand.isStoreY : Operand → Bool
  | .zeroPage _ | .zeroPageX _ | .absolute _ => true
  | .implied | .accumulator | .immediate _ | .zeroPageY _ | .absoluteX _ | .absoluteY _ => false
  | .indirect _ | .indirectX _ | .indirectY _ | .relative _ => false

/-- JMP: Absolute and Indirect (R82). -/
def Operand.isJump : Operand → Bool
  | .absolute _ | .indirect _ => true
  | .implied | .accumulator | .immediate _ | .zeroPage _ | .zeroPageX _ | .zeroPageY _ => false
  | .absoluteX _ | .absoluteY _ | .indirectX _ | .indirectY _ | .relative _ => false

/-- The 105 bytes of 30_encoding R56, in the rule's order, the table's high nibble by line. -/
def invalidOpcodes : List Byte :=
  [0x02, 0x03, 0x04, 0x07, 0x0B, 0x0C, 0x0F] ++
  [0x12, 0x13, 0x14, 0x17, 0x1A, 0x1B, 0x1C, 0x1F] ++
  [0x22, 0x23, 0x27, 0x2B, 0x2F] ++
  [0x32, 0x33, 0x34, 0x37, 0x3A, 0x3B, 0x3C, 0x3F] ++
  [0x42, 0x43, 0x44, 0x47, 0x4B, 0x4F] ++
  [0x52, 0x53, 0x54, 0x57, 0x5A, 0x5B, 0x5C, 0x5F] ++
  [0x62, 0x63, 0x64, 0x67, 0x6B, 0x6F] ++
  [0x72, 0x73, 0x74, 0x77, 0x7A, 0x7B, 0x7C, 0x7F] ++
  [0x80, 0x82, 0x83, 0x87, 0x89, 0x8B, 0x8F] ++
  [0x92, 0x93, 0x97, 0x9B, 0x9C, 0x9E, 0x9F] ++
  [0xA3, 0xA7, 0xAB, 0xAF] ++
  [0xB2, 0xB3, 0xB7, 0xBB, 0xBF] ++
  [0xC2, 0xC3, 0xC7, 0xCB, 0xCF] ++
  [0xD2, 0xD3, 0xD4, 0xD7, 0xDA, 0xDB, 0xDC, 0xDF] ++
  [0xE2, 0xE3, 0xE7, 0xEB, 0xEF] ++
  [0xF2, 0xF3, 0xF4, 0xF7, 0xFA, 0xFB, 0xFC, 0xFF]

/-- An instruction the opcode table has a row for (40_addressing_modes R82, 30_encoding R56). -/
def Instr.wf : Instr → Bool
  | .lda o | .adc o | .sbc o | .and o | .ora o | .eor o | .cmp o => o.isRead
  | .sta o => o.isStore
  | .asl o | .lsr o | .rol o | .ror o => o.isShift
  | .inc o | .dec o => o.isModify
  | .ldx o => o.isLoadX
  | .ldy o => o.isLoadY
  | .stx o => o.isStoreX
  | .sty o => o.isStoreY
  | .cpx o | .cpy o => o.isCompareIndex
  | .bit o => o.isPlain
  | .jmp o => o.isJump
  | .jsr _ => true
  | .bcc _ | .bcs _ | .beq _ | .bne _ | .bmi _ | .bpl _ | .bvc _ | .bvs _ => true
  | .tax | .txa | .tay | .tya | .tsx | .txs | .inx | .iny | .dex | .dey => true
  | .pha | .pla | .php | .plp | .rts => true
  | .clc | .sec | .cli | .sei | .cld | .sed | .clv | .brk | .rti | .nop => true
  | .invalid op => invalidOpcodes.contains op

end Sys2Proof
end

