-- ==== Sys2Proof/Decode.lean ====
section
/-! DEFINITION. The instruction table (30_encoding R53), the decoder over it (R51, R52, R55, R56),
the encoder from the encodings of rules R100 to R162, and the assembler's branch offset (R59). -/

namespace Sys2Proof

/-- What an opcode byte selects: a whole instruction, or one that takes one operand byte or one
little-endian operand word (30_encoding R51, R57). -/
inductive Entry where
  | one (i : Instr)
  | two (f : Byte → Instr)
  | three (f : Word → Instr)

/-- The opcode map's row 0x (30_encoding R53). -/
def tableRow0 : List (Nat × Entry) :=
  [(0x00, .one .brk),
   (0x01, .two fun l => .ora (.indirectX l)),
   (0x05, .two fun l => .ora (.zeroPage l)),
   (0x06, .two fun l => .asl (.zeroPage l)),
   (0x08, .one .php),
   (0x09, .two fun l => .ora (.immediate l)),
   (0x0A, .one (.asl .accumulator)),
   (0x0D, .three fun w => .ora (.absolute w)),
   (0x0E, .three fun w => .asl (.absolute w))]

/-- The opcode map's row 1x (30_encoding R53). -/
def tableRow1 : List (Nat × Entry) :=
  [(0x10, .two .bpl),
   (0x11, .two fun l => .ora (.indirectY l)),
   (0x15, .two fun l => .ora (.zeroPageX l)),
   (0x16, .two fun l => .asl (.zeroPageX l)),
   (0x18, .one .clc),
   (0x19, .three fun w => .ora (.absoluteY w)),
   (0x1D, .three fun w => .ora (.absoluteX w)),
   (0x1E, .three fun w => .asl (.absoluteX w))]

/-- The opcode map's row 2x (30_encoding R53). -/
def tableRow2 : List (Nat × Entry) :=
  [(0x20, .three .jsr),
   (0x21, .two fun l => .and (.indirectX l)),
   (0x24, .two fun l => .bit (.zeroPage l)),
   (0x25, .two fun l => .and (.zeroPage l)),
   (0x26, .two fun l => .rol (.zeroPage l)),
   (0x28, .one .plp),
   (0x29, .two fun l => .and (.immediate l)),
   (0x2A, .one (.rol .accumulator)),
   (0x2C, .three fun w => .bit (.absolute w)),
   (0x2D, .three fun w => .and (.absolute w)),
   (0x2E, .three fun w => .rol (.absolute w))]

/-- The opcode map's row 3x (30_encoding R53). -/
def tableRow3 : List (Nat × Entry) :=
  [(0x30, .two .bmi),
   (0x31, .two fun l => .and (.indirectY l)),
   (0x35, .two fun l => .and (.zeroPageX l)),
   (0x36, .two fun l => .rol (.zeroPageX l)),
   (0x38, .one .sec),
   (0x39, .three fun w => .and (.absoluteY w)),
   (0x3D, .three fun w => .and (.absoluteX w)),
   (0x3E, .three fun w => .rol (.absoluteX w))]

/-- The opcode map's row 4x (30_encoding R53). -/
def tableRow4 : List (Nat × Entry) :=
  [(0x40, .one .rti),
   (0x41, .two fun l => .eor (.indirectX l)),
   (0x45, .two fun l => .eor (.zeroPage l)),
   (0x46, .two fun l => .lsr (.zeroPage l)),
   (0x48, .one .pha),
   (0x49, .two fun l => .eor (.immediate l)),
   (0x4A, .one (.lsr .accumulator)),
   (0x4C, .three fun w => .jmp (.absolute w)),
   (0x4D, .three fun w => .eor (.absolute w)),
   (0x4E, .three fun w => .lsr (.absolute w))]

/-- The opcode map's row 5x (30_encoding R53). -/
def tableRow5 : List (Nat × Entry) :=
  [(0x50, .two .bvc),
   (0x51, .two fun l => .eor (.indirectY l)),
   (0x55, .two fun l => .eor (.zeroPageX l)),
   (0x56, .two fun l => .lsr (.zeroPageX l)),
   (0x58, .one .cli),
   (0x59, .three fun w => .eor (.absoluteY w)),
   (0x5D, .three fun w => .eor (.absoluteX w)),
   (0x5E, .three fun w => .lsr (.absoluteX w))]

/-- The opcode map's row 6x (30_encoding R53). -/
def tableRow6 : List (Nat × Entry) :=
  [(0x60, .one .rts),
   (0x61, .two fun l => .adc (.indirectX l)),
   (0x65, .two fun l => .adc (.zeroPage l)),
   (0x66, .two fun l => .ror (.zeroPage l)),
   (0x68, .one .pla),
   (0x69, .two fun l => .adc (.immediate l)),
   (0x6A, .one (.ror .accumulator)),
   (0x6C, .three fun w => .jmp (.indirect w)),
   (0x6D, .three fun w => .adc (.absolute w)),
   (0x6E, .three fun w => .ror (.absolute w))]

/-- The opcode map's row 7x (30_encoding R53). -/
def tableRow7 : List (Nat × Entry) :=
  [(0x70, .two .bvs),
   (0x71, .two fun l => .adc (.indirectY l)),
   (0x75, .two fun l => .adc (.zeroPageX l)),
   (0x76, .two fun l => .ror (.zeroPageX l)),
   (0x78, .one .sei),
   (0x79, .three fun w => .adc (.absoluteY w)),
   (0x7D, .three fun w => .adc (.absoluteX w)),
   (0x7E, .three fun w => .ror (.absoluteX w))]

/-- The opcode map's row 8x (30_encoding R53). -/
def tableRow8 : List (Nat × Entry) :=
  [(0x81, .two fun l => .sta (.indirectX l)),
   (0x84, .two fun l => .sty (.zeroPage l)),
   (0x85, .two fun l => .sta (.zeroPage l)),
   (0x86, .two fun l => .stx (.zeroPage l)),
   (0x88, .one .dey),
   (0x8A, .one .txa),
   (0x8C, .three fun w => .sty (.absolute w)),
   (0x8D, .three fun w => .sta (.absolute w)),
   (0x8E, .three fun w => .stx (.absolute w))]

/-- The opcode map's row 9x (30_encoding R53). -/
def tableRow9 : List (Nat × Entry) :=
  [(0x90, .two .bcc),
   (0x91, .two fun l => .sta (.indirectY l)),
   (0x94, .two fun l => .sty (.zeroPageX l)),
   (0x95, .two fun l => .sta (.zeroPageX l)),
   (0x96, .two fun l => .stx (.zeroPageY l)),
   (0x98, .one .tya),
   (0x99, .three fun w => .sta (.absoluteY w)),
   (0x9A, .one .txs),
   (0x9D, .three fun w => .sta (.absoluteX w))]

/-- The opcode map's row Ax (30_encoding R53). -/
def tableRowA : List (Nat × Entry) :=
  [(0xA0, .two fun l => .ldy (.immediate l)),
   (0xA1, .two fun l => .lda (.indirectX l)),
   (0xA2, .two fun l => .ldx (.immediate l)),
   (0xA4, .two fun l => .ldy (.zeroPage l)),
   (0xA5, .two fun l => .lda (.zeroPage l)),
   (0xA6, .two fun l => .ldx (.zeroPage l)),
   (0xA8, .one .tay),
   (0xA9, .two fun l => .lda (.immediate l)),
   (0xAA, .one .tax),
   (0xAC, .three fun w => .ldy (.absolute w)),
   (0xAD, .three fun w => .lda (.absolute w)),
   (0xAE, .three fun w => .ldx (.absolute w))]

/-- The opcode map's row Bx (30_encoding R53). -/
def tableRowB : List (Nat × Entry) :=
  [(0xB0, .two .bcs),
   (0xB1, .two fun l => .lda (.indirectY l)),
   (0xB4, .two fun l => .ldy (.zeroPageX l)),
   (0xB5, .two fun l => .lda (.zeroPageX l)),
   (0xB6, .two fun l => .ldx (.zeroPageY l)),
   (0xB8, .one .clv),
   (0xB9, .three fun w => .lda (.absoluteY w)),
   (0xBA, .one .tsx),
   (0xBC, .three fun w => .ldy (.absoluteX w)),
   (0xBD, .three fun w => .lda (.absoluteX w)),
   (0xBE, .three fun w => .ldx (.absoluteY w))]

/-- The opcode map's row Cx (30_encoding R53). -/
def tableRowC : List (Nat × Entry) :=
  [(0xC0, .two fun l => .cpy (.immediate l)),
   (0xC1, .two fun l => .cmp (.indirectX l)),
   (0xC4, .two fun l => .cpy (.zeroPage l)),
   (0xC5, .two fun l => .cmp (.zeroPage l)),
   (0xC6, .two fun l => .dec (.zeroPage l)),
   (0xC8, .one .iny),
   (0xC9, .two fun l => .cmp (.immediate l)),
   (0xCA, .one .dex),
   (0xCC, .three fun w => .cpy (.absolute w)),
   (0xCD, .three fun w => .cmp (.absolute w)),
   (0xCE, .three fun w => .dec (.absolute w))]

/-- The opcode map's row Dx (30_encoding R53). -/
def tableRowD : List (Nat × Entry) :=
  [(0xD0, .two .bne),
   (0xD1, .two fun l => .cmp (.indirectY l)),
   (0xD5, .two fun l => .cmp (.zeroPageX l)),
   (0xD6, .two fun l => .dec (.zeroPageX l)),
   (0xD8, .one .cld),
   (0xD9, .three fun w => .cmp (.absoluteY w)),
   (0xDD, .three fun w => .cmp (.absoluteX w)),
   (0xDE, .three fun w => .dec (.absoluteX w))]

/-- The opcode map's row Ex (30_encoding R53). -/
def tableRowE : List (Nat × Entry) :=
  [(0xE0, .two fun l => .cpx (.immediate l)),
   (0xE1, .two fun l => .sbc (.indirectX l)),
   (0xE4, .two fun l => .cpx (.zeroPage l)),
   (0xE5, .two fun l => .sbc (.zeroPage l)),
   (0xE6, .two fun l => .inc (.zeroPage l)),
   (0xE8, .one .inx),
   (0xE9, .two fun l => .sbc (.immediate l)),
   (0xEA, .one .nop),
   (0xEC, .three fun w => .cpx (.absolute w)),
   (0xED, .three fun w => .sbc (.absolute w)),
   (0xEE, .three fun w => .inc (.absolute w))]

/-- The opcode map's row Fx (30_encoding R53). -/
def tableRowF : List (Nat × Entry) :=
  [(0xF0, .two .beq),
   (0xF1, .two fun l => .sbc (.indirectY l)),
   (0xF5, .two fun l => .sbc (.zeroPageX l)),
   (0xF6, .two fun l => .inc (.zeroPageX l)),
   (0xF8, .one .sed),
   (0xF9, .three fun w => .sbc (.absoluteY w)),
   (0xFD, .three fun w => .sbc (.absoluteX w)),
   (0xFE, .three fun w => .inc (.absoluteX w))]

/-- The 151 mapped entries of the instruction table (30_encoding R53, 10_state R30). -/
def instructionTable : List (Nat × Entry) :=
  tableRow0 ++ tableRow1 ++ tableRow2 ++ tableRow3 ++ tableRow4 ++ tableRow5 ++ tableRow6 ++
  tableRow7 ++ tableRow8 ++ tableRow9 ++ tableRowA ++ tableRowB ++ tableRowC ++ tableRowD ++
  tableRowE ++ tableRowF

/-- `TABLE[op]` (30_encoding R55): an unmapped byte selects the Invalid-Opcode handler (R56). -/
def entryOf (op : Byte) : Entry :=
  (instructionTable.lookup op.toNat).getD (.one (.invalid op))

/-- How many operand bytes follow the opcode (30_encoding R51, R57). -/
def Entry.operandCount : Entry → Nat
  | .one _ => 0
  | .two _ => 1
  | .three _ => 2

/-- The instruction of an entry whose operand bytes, where it has them, are `b1` and then `b2`
(30_encoding R52, 20_memory R38). -/
def Entry.build (b1 b2 : Byte) : Entry → Instr
  | .one i => i
  | .two f => f b1
  | .three f => f (concat16 b2 b1)

/-- The instruction whose first byte is `op` and whose operand bytes, where it has them, are `b1` and
then `b2`: `TABLE[op]` with its fields assembled (30_encoding R52, R53, R55). -/
def instrOf (op b1 b2 : Byte) : Instr := (entryOf op).build b1 b2

/-- Why a list of bytes is no instruction: it ends too early. No byte value is refused, since every
opcode byte has an entry (30_encoding R53, R56). -/
inductive DecodeError where
  /-- There is no opcode byte. -/
  | noOpcode
  /-- An operand byte of this opcode is missing. -/
  | truncated (op : Byte)
  deriving DecidableEq, Repr

/-- The decoder: the first instruction of a list of bytes, and the rest (30_encoding R51-R57). -/
def decode : List Byte → Except DecodeError (Instr × List Byte)
  | [] => .error .noOpcode
  | op :: rest =>
    if rest.length < (entryOf op).operandCount then .error (.truncated op)
    else .ok (instrOf op (rest.getD 0 0) (rest.getD 1 0), rest.drop (entryOf op).operandCount)

/-- The opcode bytes of one mnemonic, one field for each mode it can have (30_encoding R54). -/
structure Opcodes where
  imp : Option Byte := none
  acc : Option Byte := none
  imm : Option Byte := none
  zp : Option Byte := none
  zpX : Option Byte := none
  zpY : Option Byte := none
  abs : Option Byte := none
  absX : Option Byte := none
  absY : Option Byte := none
  ind : Option Byte := none
  indX : Option Byte := none
  indY : Option Byte := none
  rel : Option Byte := none

/-- The opcode for the operand's mode. -/
def Opcodes.select (t : Opcodes) : Operand → Option Byte
  | .implied => t.imp
  | .accumulator => t.acc
  | .immediate _ => t.imm
  | .zeroPage _ => t.zp
  | .zeroPageX _ => t.zpX
  | .zeroPageY _ => t.zpY
  | .absolute _ => t.abs
  | .absoluteX _ => t.absX
  | .absoluteY _ => t.absY
  | .indirect _ => t.ind
  | .indirectX _ => t.indX
  | .indirectY _ => t.indY
  | .relative _ => t.rel

/-- The encodings each instruction's own rule lists (R100 to R163); INVALID's are the bytes of R56. -/
def Instr.opcodes : Instr → Opcodes
  | .lda _ =>
      { imm := some 0xA9, zp := some 0xA5, zpX := some 0xB5, abs := some 0xAD,
        absX := some 0xBD, absY := some 0xB9, indX := some 0xA1, indY := some 0xB1 }
  | .ldx _ =>
      { imm := some 0xA2, zp := some 0xA6, zpY := some 0xB6, abs := some 0xAE,
        absY := some 0xBE }
  | .ldy _ =>
      { imm := some 0xA0, zp := some 0xA4, zpX := some 0xB4, abs := some 0xAC,
        absX := some 0xBC }
  | .sta _ =>
      { zp := some 0x85, zpX := some 0x95, abs := some 0x8D, absX := some 0x9D,
        absY := some 0x99, indX := some 0x81, indY := some 0x91 }
  | .stx _ => { zp := some 0x86, zpY := some 0x96, abs := some 0x8E }
  | .sty _ => { zp := some 0x84, zpX := some 0x94, abs := some 0x8C }
  | .tax => { imp := some 0xAA }
  | .txa => { imp := some 0x8A }
  | .tay => { imp := some 0xA8 }
  | .tya => { imp := some 0x98 }
  | .tsx => { imp := some 0xBA }
  | .txs => { imp := some 0x9A }
  | .adc _ =>
      { imm := some 0x69, zp := some 0x65, zpX := some 0x75, abs := some 0x6D,
        absX := some 0x7D, absY := some 0x79, indX := some 0x61, indY := some 0x71 }
  | .sbc _ =>
      { imm := some 0xE9, zp := some 0xE5, zpX := some 0xF5, abs := some 0xED,
        absX := some 0xFD, absY := some 0xF9, indX := some 0xE1, indY := some 0xF1 }
  | .and _ =>
      { imm := some 0x29, zp := some 0x25, zpX := some 0x35, abs := some 0x2D,
        absX := some 0x3D, absY := some 0x39, indX := some 0x21, indY := some 0x31 }
  | .ora _ =>
      { imm := some 0x09, zp := some 0x05, zpX := some 0x15, abs := some 0x0D,
        absX := some 0x1D, absY := some 0x19, indX := some 0x01, indY := some 0x11 }
  | .eor _ =>
      { imm := some 0x49, zp := some 0x45, zpX := some 0x55, abs := some 0x4D,
        absX := some 0x5D, absY := some 0x59, indX := some 0x41, indY := some 0x51 }
  | .bit _ => { zp := some 0x24, abs := some 0x2C }
  | .asl _ =>
      { acc := some 0x0A, zp := some 0x06, zpX := some 0x16, abs := some 0x0E,
        absX := some 0x1E }
  | .lsr _ =>
      { acc := some 0x4A, zp := some 0x46, zpX := some 0x56, abs := some 0x4E,
        absX := some 0x5E }
  | .rol _ =>
      { acc := some 0x2A, zp := some 0x26, zpX := some 0x36, abs := some 0x2E,
        absX := some 0x3E }
  | .ror _ =>
      { acc := some 0x6A, zp := some 0x66, zpX := some 0x76, abs := some 0x6E,
        absX := some 0x7E }
  | .inc _ => { zp := some 0xE6, zpX := some 0xF6, abs := some 0xEE, absX := some 0xFE }
  | .dec _ => { zp := some 0xC6, zpX := some 0xD6, abs := some 0xCE, absX := some 0xDE }
  | .inx => { imp := some 0xE8 }
  | .iny => { imp := some 0xC8 }
  | .dex => { imp := some 0xCA }
  | .dey => { imp := some 0x88 }
  | .cmp _ =>
      { imm := some 0xC9, zp := some 0xC5, zpX := some 0xD5, abs := some 0xCD,
        absX := some 0xDD, absY := some 0xD9, indX := some 0xC1, indY := some 0xD1 }
  | .cpx _ => { imm := some 0xE0, zp := some 0xE4, abs := some 0xEC }
  | .cpy _ => { imm := some 0xC0, zp := some 0xC4, abs := some 0xCC }
  | .pha => { imp := some 0x48 }
  | .pla => { imp := some 0x68 }
  | .php => { imp := some 0x08 }
  | .plp => { imp := some 0x28 }
  | .jmp _ => { abs := some 0x4C, ind := some 0x6C }
  | .jsr _ => { abs := some 0x20 }
  | .rts => { imp := some 0x60 }
  | .bcc _ => { rel := some 0x90 }
  | .bcs _ => { rel := some 0xB0 }
  | .beq _ => { rel := some 0xF0 }
  | .bne _ => { rel := some 0xD0 }
  | .bmi _ => { rel := some 0x30 }
  | .bpl _ => { rel := some 0x10 }
  | .bvc _ => { rel := some 0x50 }
  | .bvs _ => { rel := some 0x70 }
  | .clc => { imp := some 0x18 }
  | .sec => { imp := some 0x38 }
  | .cli => { imp := some 0x58 }
  | .sei => { imp := some 0x78 }
  | .cld => { imp := some 0xD8 }
  | .sed => { imp := some 0xF8 }
  | .clv => { imp := some 0xB8 }
  | .brk => { imp := some 0x00 }
  | .rti => { imp := some 0x40 }
  | .nop => { imp := some 0xEA }
  | .invalid op => { imp := if invalidOpcodes.contains op then some op else none }

/-- The operand bytes in address order, the low byte of a word first (30_encoding R51, R52). -/
def Operand.bytes : Operand → List Byte
  | .implied | .accumulator => []
  | .immediate b | .zeroPage b | .zeroPageX b | .zeroPageY b => [b]
  | .indirectX b | .indirectY b | .relative b => [b]
  | .absolute w | .absoluteX w | .absoluteY w | .indirect w => [loByte w, hiByte w]

/-- The opcode byte of an instruction, none where the table has no row for it. -/
def Instr.opcode? (i : Instr) : Option Byte :=
  i.opcodes.select i.operand

/-- The encoder: the bytes of a well-formed instruction, and no byte of one that is not. -/
def encode (i : Instr) : List Byte :=
  match i.opcode? with
  | some op => op :: i.operand.bytes
  | none => []

/-- `length_bytes`: 1 to 3, by the addressing mode alone (30_encoding R51, R57). -/
def Instr.length (i : Instr) : Nat :=
  1 + i.operand.bytes.length

/-- The offset byte an assembler emits for a branch at `a` to `target`; it rejects a target outside
`a + 2 - 128` to `a + 2 + 127` (30_encoding R59). DEDUCED (log 23): that range is taken modulo 2^16,
as the spec's decision D3 takes every 16-bit sum. No step uses this function. -/
def branchOffset (a target : Word) : Option Byte :=
  let d := target - (a + 2)
  if sext16 (loByte d) = d then some (loByte d) else none

/-- The mnemonic's spelling, which the table exposes to the disassembler (30_encoding R61). -/
def Instr.mnemonic : Instr → String
  | .lda _ => "LDA" | .ldx _ => "LDX" | .ldy _ => "LDY" | .sta _ => "STA"
  | .stx _ => "STX" | .sty _ => "STY" | .tax => "TAX" | .txa => "TXA"
  | .tay => "TAY" | .tya => "TYA" | .tsx => "TSX" | .txs => "TXS"
  | .adc _ => "ADC" | .sbc _ => "SBC" | .and _ => "AND" | .ora _ => "ORA"
  | .eor _ => "EOR" | .bit _ => "BIT" | .asl _ => "ASL" | .lsr _ => "LSR"
  | .rol _ => "ROL" | .ror _ => "ROR" | .inc _ => "INC" | .dec _ => "DEC"
  | .inx => "INX" | .iny => "INY" | .dex => "DEX" | .dey => "DEY"
  | .cmp _ => "CMP" | .cpx _ => "CPX" | .cpy _ => "CPY" | .pha => "PHA"
  | .pla => "PLA" | .php => "PHP" | .plp => "PLP" | .jmp _ => "JMP"
  | .jsr _ => "JSR" | .rts => "RTS" | .bcc _ => "BCC" | .bcs _ => "BCS"
  | .beq _ => "BEQ" | .bne _ => "BNE" | .bmi _ => "BMI" | .bpl _ => "BPL"
  | .bvc _ => "BVC" | .bvs _ => "BVS" | .clc => "CLC" | .sec => "SEC"
  | .cli => "CLI" | .sei => "SEI" | .cld => "CLD" | .sed => "SED"
  | .clv => "CLV" | .brk => "BRK" | .rti => "RTI" | .nop => "NOP"
  | .invalid _ => "INVALID"

/-- The first three bytes of an instruction whose bits are `w`, the first byte least significant. -/
def tableWordBytes (nbits w : Nat) : List Byte :=
  let v := w % 2 ^ nbits
  [BitVec.ofNat 8 v, BitVec.ofNat 8 (v / 2 ^ 8), BitVec.ofNat 8 (v / 2 ^ 16)]

/-- The instruction the decoder reads from the bits `w` as spec/opcode_table.json numbers them; the
bits above `nbits` are zero. -/
def decodeTableWord (nbits w : Nat) : Option Instr :=
  match decode (tableWordBytes nbits w) with
  | .ok (i, _) => some i
  | .error _ => none

end Sys2Proof
end

