-- ==== Sys2Proof/Machine/Cycles.lean ====
section
/-! DEFINITION. The cycle_counter: base cycles and the page-cross mask of each row of the opcode table
(30_encoding R54) and the formula of 70_reset R235. A mode the table has no row for has 0. -/

namespace Sys2Proof.Machine

/-- Base cycles of the read-class instructions by mode (30_encoding R54). -/
def readCycles : Operand → Nat
  | .immediate _ => 2
  | .zeroPage _ => 3
  | .zeroPageX _ | .zeroPageY _ => 4
  | .absolute _ | .absoluteX _ | .absoluteY _ => 4
  | .indirectX _ => 6
  | .indirectY _ => 5
  | .implied | .accumulator | .indirect _ | .relative _ => 0

/-- Fixed cycles of the stores by mode (30_encoding R54, C2, D13). -/
def storeCycles : Operand → Nat
  | .zeroPage _ => 3
  | .zeroPageX _ | .zeroPageY _ => 4
  | .absolute _ => 4
  | .absoluteX _ | .absoluteY _ => 5
  | .indirectX _ | .indirectY _ => 6
  | .implied | .accumulator | .immediate _ | .indirect _ | .relative _ => 0

/-- Fixed cycles of the read-modify-write instructions by mode (30_encoding R54, 44_shift_rotate
R122, D13). -/
def modifyCycles : Operand → Nat
  | .accumulator => 2
  | .zeroPage _ => 5
  | .zeroPageX _ => 6
  | .absolute _ => 6
  | .absoluteX _ => 7
  | .implied | .immediate _ | .zeroPageY _ | .absoluteY _ => 0
  | .indirect _ | .indirectX _ | .indirectY _ | .relative _ => 0

/-- JMP's cycles by mode (48_control_flow R141). -/
def jumpCycles : Operand → Nat
  | .absolute _ => 3
  | .indirect _ => 5
  | .implied | .accumulator | .immediate _ | .zeroPage _ | .zeroPageX _ | .zeroPageY _ => 0
  | .absoluteX _ | .absoluteY _ | .indirectX _ | .indirectY _ | .relative _ => 0

/-- `base_cycles` (30_encoding R54). INVALID has none: its step returns no count (70_reset R235). -/
def baseCycles : Instr → Nat
  | .lda o | .ldx o | .ldy o | .adc o | .sbc o | .and o | .ora o | .eor o => readCycles o
  | .bit o | .cmp o | .cpx o | .cpy o => readCycles o
  | .sta o | .stx o | .sty o => storeCycles o
  | .asl o | .lsr o | .rol o | .ror o | .inc o | .dec o => modifyCycles o
  | .jmp o => jumpCycles o
  | .tax | .txa | .tay | .tya | .tsx | .txs | .inx | .iny | .dex | .dey => 2
  | .bcc _ | .bcs _ | .beq _ | .bne _ | .bmi _ | .bpl _ | .bvc _ | .bvs _ => 2
  | .clc | .sec | .cli | .sei | .cld | .sed | .clv | .nop => 2
  | .pha | .php => 3
  | .pla | .plp => 4
  | .jsr _ | .rts | .rti => 6
  | .brk => 7
  | .invalid _ => 0

/-- The indexed modes with a 16-bit base, whose resolver can report a page cross (40_addressing_modes
R81). -/
def canCross : Operand → Bool
  | .absoluteX _ | .absoluteY _ | .indirectY _ => true
  | .implied | .accumulator | .immediate _ | .zeroPage _ | .zeroPageX _ | .zeroPageY _ => false
  | .absolute _ | .indirect _ | .indirectX _ | .relative _ => false

/-- `page_cross_cycle_counted`: for the nine read-class mnemonics of D13 only (30_encoding R54, R55,
C2). -/
def countsPageCross : Instr → Bool
  | .ora o | .and o | .eor o | .adc o | .lda o | .cmp o | .sbc o | .ldx o | .ldy o => canCross o
  | .sta _ | .stx _ | .sty _ | .bit _ | .cpx _ | .cpy _ | .jmp _ | .jsr _ => false
  | .asl _ | .lsr _ | .rol _ | .ror _ | .inc _ | .dec _ => false
  | .bcc _ | .bcs _ | .beq _ | .bne _ | .bmi _ | .bpl _ | .bvc _ | .bvs _ => false
  | .tax | .txa | .tay | .tya | .tsx | .txs | .inx | .iny | .dex | .dey => false
  | .pha | .pla | .php | .plp | .rts => false
  | .clc | .sec | .cli | .sei | .cld | .sed | .clv | .brk | .rti | .nop => false
  | .invalid _ => false

/-- `cycles = base_cycles + (page_cross_cycle_counted ? additional_cycles : 0) + extraOp`
(30_encoding R55, 70_reset R235). -/
def stepCycles (i : Instr) (additional extraOp : Nat) : Nat :=
  baseCycles i + (if countsPageCross i then additional else 0) + extraOp

end Sys2Proof.Machine
end

