-- ==== Sys2Proof/Machine/State.lean ====
section
/-! DEFINITION. The machine's state (10_state R13, R29; 70_reset R236; 60_exceptions R201), the
reasons a step can stop, and the state after reset. INVENTORY.md lists every field. -/

namespace Sys2Proof.Machine

/-- The eight bits of SR (10_state R18). -/
inductive StatusFlag where
  | carry
  | zero
  | interruptDisable
  | decimal
  | brk
  | unused
  | overflow
  | negative
  deriving DecidableEq, Repr

/-- One entry of the fault record: `InvalidOpcode(op, addr)` (60_exceptions R200, R201). -/
structure InvalidOpcode where
  op : Byte
  addr : Word
  deriving DecidableEq, Repr

/-- The host's moves between steps (60_exceptions R215). A host read of memory has no effect
(20_memory R36) and needs no constructor. -/
inductive HostAction where
  /-- `fetch_execute_next()`. -/
  | fetchExecute
  | irq
  | nmi
  | reset
  /-- The loader or a peripheral stores a byte (20_memory R33, R35). -/
  | memWrite (addr : Word) (value : Byte)
  deriving DecidableEq, Repr

/-- The memory: (address, byte) pairs at strictly rising addresses below 65536, none holding the byte
an unlisted address reads as (20_memory R32, R33; log 14). `Memory.wf` is that form. -/
abbrev Memory := List Host.Cell

/-- The state. The first seven fields are the architectural state, exactly (10_state R13). -/
structure State where
  /-- PC: between steps the address of the next opcode to fetch (10_state R27). -/
  pc : Word
  /-- A, the accumulator (10_state R14). -/
  a : Byte
  /-- X (10_state R15). -/
  x : Byte
  /-- Y (10_state R16). -/
  y : Byte
  /-- SP, the index into the stack page (10_state R17). -/
  sp : Byte
  /-- SR: eight storage bits (10_state R18). -/
  sr : Byte
  /-- M (10_state R13, 20_memory R31). -/
  mem : Memory
  /-- Model-only: a `reset()` has been made (10_state R29(d)). -/
  resetDone : Bool
  /-- Model-only: CYC, the cumulative cycle count (70_reset R236). -/
  cyc : Nat
  /-- Model-only: the fault record, oldest entry first (60_exceptions R201). -/
  faults : List InvalidOpcode
  /-- The model's own: the OPEN parameters, which no step changes (00_scope R4; log 1). -/
  params : Params
  /-- The model's own: the host's calls still to be made, next one first (D23; log 8). When the list
  is empty the host calls `fetch_execute_next()`. -/
  script : List HostAction
  deriving DecidableEq, Repr

/-- The faults that stop the machine. -/
inductive Fault where
  /-- Raised by `fetch_execute_next()` when `ON_INVALID` is `fatal` and the fault record is not empty:
  the model takes no further step of the core (60_exceptions R201). It names the record's first
  entry. Safe: the spec's run stops here too. -/
  | invalidOpcode (op : Byte) (addr : Word)
  deriving DecidableEq, Repr

/-- The refusals. -/
inductive Refusal where
  /-- An instruction without a meaning yet. No arm raises it: every instruction has its meaning. Safe. -/
  | notModelled (mnemonic : String)
  /-- Raised by `fetch_execute_next()` before the first `reset()` (30_encoding R55, D20). Safe: the
  spec itself refuses this step. DESIGN CHOICE (log 22): this refusal is the mark that D20 keeps, and
  the run ends with it. -/
  | notReset
  /-- Raised by a host `irq()` or `nmi()` before the first `reset()`, for which the spec gives no
  move (70_reset R232, D22; log 9). Safe: nothing is claimed of such a call. -/
  | interruptBeforeReset
  deriving DecidableEq, Repr

/-- What one step answers. -/
abbrev Result := Host.Outcome State Fault Refusal

/-- The parameters a run from `State.reset` is given. RESET_SP is DESIGN CHOICE 0xFD (log 2, unsafe);
DECIMAL_MODE is the spec's `opaque`, which assumes nothing (log 5, safe); ON_INVALID is the default
the spec states (log 6). -/
def Params.atReset : Params where
  resetSp := 0xFD
  decimalMode := .uninterpreted
  onInvalid := .fatal

/-- The state at creation, before any `reset()` (70_reset R232): memory all zero, CYC 0, no fault. The
spec gives the registers no value here (the POWER_ON draw, D6); zero is a DESIGN CHOICE (log 15). -/
def State.creation : State where
  pc := 0
  a := 0
  x := 0
  y := 0
  sp := 0
  sr := 0
  mem := []
  resetDone := false
  cyc := 0
  faults := []
  params := Params.atReset
  script := []

/-- The state after the first `reset()` of an empty machine (10_state R28, 70_reset R230, R232): PC is
the RESET vector's 0x0000, SP is RESET_SP, I is 0. A, X, Y and the other SR bits keep their draw,
here zero (DESIGN CHOICE, log 3 and log 4, unsafe). -/
def State.reset : State where
  pc := 0
  a := 0
  x := 0
  y := 0
  sp := 0xFD
  sr := 0
  mem := []
  resetDone := true
  cyc := 0
  faults := []
  params := Params.atReset
  script := []

end Sys2Proof.Machine
end

