-- ==== Sys2Proof/Machine/Registers.lean ====
section
/-! DEFINITION. One setter per field of State that some call changes. The parameters have none: no
step changes them (00_scope R4). -/

namespace Sys2Proof.Machine

/-- `PC <- v` (00_scope R6, 10_state R27). -/
def State.setPc (s : State) (v : Word) : State := { s with pc := v }

/-- `A <- v` (00_scope R6, 10_state R14). -/
def State.setA (s : State) (v : Byte) : State := { s with a := v }

/-- `X <- v` (00_scope R6, 10_state R15). -/
def State.setX (s : State) (v : Byte) : State := { s with x := v }

/-- `Y <- v` (00_scope R6, 10_state R16). -/
def State.setY (s : State) (v : Byte) : State := { s with y := v }

/-- `SP <- v` (00_scope R6, 10_state R17). -/
def State.setSp (s : State) (v : Byte) : State := { s with sp := v }

/-- `SR <- v`, all eight bits (00_scope R6, 10_state R18). -/
def State.setSr (s : State) (v : Byte) : State := { s with sr := v }

/-- Replaces the memory. -/
def State.setMem (s : State) (m : Memory) : State := { s with mem := m }

/-- Sets `resetDone` (10_state R29(d)). -/
def State.setResetDone (s : State) (b : Bool) : State := { s with resetDone := b }

/-- Sets CYC (70_reset R236). -/
def State.setCyc (s : State) (n : Nat) : State := { s with cyc := n }

/-- Replaces the fault record (60_exceptions R201). -/
def State.setFaults (s : State) (fs : List InvalidOpcode) : State := { s with faults := fs }

/-- Replaces the host's calls still to be made (log 8). -/
def State.setScript (s : State) (as : List HostAction) : State := { s with script := as }

end Sys2Proof.Machine
end

