-- ==== Sys2Proof/Machine/Flags.lean ====
section
/-! DEFINITION. The bits of SR (10_state R18) and every flag computation: SetNZ (00_scope R9), the
adders of 42_arithmetic R112, R116 and R117, the shifts of R123-R126, Compare (R133), BIT (R121). -/

namespace Sys2Proof.Machine

/-- The bit position of a flag in SR, "fixed" (10_state R18). -/
def StatusFlag.bit : StatusFlag → Nat
  | .carry => 0
  | .zero => 1
  | .interruptDisable => 2
  | .decimal => 3
  | .brk => 4
  | .unused => 5
  | .overflow => 6
  | .negative => 7

/-- `v[i] <- b` for one bit of a byte. -/
def setBit (v : Byte) (i : Nat) (b : Bool) : Byte :=
  if b then v ||| (1#8 <<< i) else v &&& ~~~(1#8 <<< i)

/-- `SR.<f>` (00_scope R6). -/
def State.flag (s : State) (f : StatusFlag) : Bool := s.sr.getLsbD f.bit

/-- `SR.<f> <- b` (00_scope R6). -/
def State.setFlag (s : State) (f : StatusFlag) (b : Bool) : State := s.setSr (setBit s.sr f.bit b)

/-- `SetNZ(v)`: N is bit 7, Z the zero check (00_scope R9). -/
def State.setNZ (s : State) (v : Byte) : State :=
  (s.setFlag .negative (v.getLsbD 7)).setFlag .zero (v == 0)

/-- `AddBinary(a, m, c)`: the 9-bit intermediate sum, C its bit 8, V the two's-complement overflow of
the addition (42_arithmetic R112). -/
def addBinary (a m : Byte) (c : Bool) : AluResult :=
  let sum := a.toNat + m.toNat + c.toNat
  let res : Byte := BitVec.ofNat 8 sum
  { res := res
    c := sum.testBit 8
    v := (~~~(a ^^^ m) &&& (a ^^^ res)).getLsbD 7
    n := res.getLsbD 7
    z := res == 0 }

/-- `DecimalADC` of the NMOS 6502 (42_arithmetic R116). -/
def nmosDecimalAdc (a m : Byte) (c : Bool) : AluResult :=
  let lo0 := a.toNat % 16 + m.toNat % 16 + c.toNat
  let lo := if lo0 > 0x09 then lo0 + 0x06 else lo0
  let hi0 := a.toNat / 16 + m.toNat / 16 + (if lo > 0x0F then 1 else 0)
  let hi := if hi0 > 0x09 then hi0 + 0x06 else hi0
  { res := BitVec.ofNat 8 (hi * 16 + lo % 16)
    c := decide (hi > 0x0F)
    v := (~~~(a ^^^ m) &&& (a ^^^ BitVec.ofNat 8 (hi0 * 16))).getLsbD 7
    n := hi0.testBit 3
    z := decide ((a.toNat + m.toNat + c.toNat) % 256 = 0) }

/-- `DecimalSBC` of the NMOS 6502: the flags are the binary subtraction's, and `x & 0x0F` of a
negative x is x modulo 16 (42_arithmetic R117). -/
def nmosDecimalSbc (a m : Byte) (c : Bool) : AluResult :=
  let lo0 : Int := (a.toNat % 16 : Nat) - (m.toNat % 16 : Nat) - (1 - c.toNat : Nat)
  let hi0 : Int := (a.toNat / 16 : Nat) - (m.toNat / 16 : Nat)
  let lo := if lo0 < 0 then lo0 - 6 else lo0
  let hi1 := if lo0 < 0 then hi0 - 1 else hi0
  let hi := if hi1 < 0 then hi1 - 6 else hi1
  { addBinary a (~~~m) c with res := BitVec.ofNat 8 ((hi % 16).toNat * 16 + (lo % 16).toNat) }

/-- `DecimalADC` as `DECIMAL_MODE` selects it (42_arithmetic R115). -/
def decimalAdc (mode : DecimalMode) (a m : Byte) (c : Bool) : AluResult :=
  match mode with
  | .binary => addBinary a m c
  | .nmosBcd => nmosDecimalAdc a m c
  | .uninterpreted => Config.decimalAdc a m c

/-- `DecimalSBC` as `DECIMAL_MODE` selects it; under `binary` D is ignored (42_arithmetic R115). -/
def decimalSbc (mode : DecimalMode) (a m : Byte) (c : Bool) : AluResult :=
  match mode with
  | .binary => addBinary a (~~~m) c
  | .nmosBcd => nmosDecimalSbc a m c
  | .uninterpreted => Config.decimalSbc a m c

/-- The sum ADC forms of A, the operand and C (42_arithmetic R113). -/
def State.adcResult (s : State) (m : Byte) : AluResult :=
  if s.flag .decimal then decimalAdc s.params.decimalMode s.a m (s.flag .carry)
  else addBinary s.a m (s.flag .carry)

/-- The difference SBC forms: the binary sum with `~m` (42_arithmetic R114, C7, D21). -/
def State.sbcResult (s : State) (m : Byte) : AluResult :=
  if s.flag .decimal then decimalSbc s.params.decimalMode s.a m (s.flag .carry)
  else addBinary s.a (~~~m) (s.flag .carry)

/-- `A <- res; SR.C <- c; SR.V <- v; SR.N <- n; SR.Z <- z` (42_arithmetic R113, R114). -/
def State.setAlu (s : State) (r : AluResult) : State :=
  ((((s.setA r.res).setFlag .carry r.c).setFlag .overflow r.v).setFlag .negative r.n).setFlag
    .zero r.z

/-- The result of a shift or rotate and the bit shifted out. -/
structure ShiftResult where
  res : Byte
  out : Bool
  deriving DecidableEq, Repr

/-- ASL: `res <- (v << 1) & 0xFF; SR.C <- v[7]` (44_shift_rotate R123). -/
def shiftLeft (v : Byte) (_carry : Bool) : ShiftResult :=
  { res := v <<< 1, out := v.getLsbD 7 }

/-- LSR: `res <- v >> 1; SR.C <- v[0]` (44_shift_rotate R124). -/
def shiftRight (v : Byte) (_carry : Bool) : ShiftResult :=
  { res := v >>> 1, out := v.getLsbD 0 }

/-- ROL: `res <- ((v << 1) | SR.C) & 0xFF; SR.C <- v[7]` (44_shift_rotate R125). -/
def rotateLeft (v : Byte) (carry : Bool) : ShiftResult :=
  { res := (v <<< 1) ||| BitVec.ofNat 8 carry.toNat, out := v.getLsbD 7 }

/-- ROR: `res <- (SR.C << 7) | (v >> 1); SR.C <- v[0]` (44_shift_rotate R126). -/
def rotateRight (v : Byte) (carry : Bool) : ShiftResult :=
  { res := (BitVec.ofNat 8 carry.toNat <<< 7) ||| (v >>> 1), out := v.getLsbD 0 }

/-- `Compare(reg, m)`: C is the unsigned `reg >= m`, N and Z are of the 8-bit difference, V is kept
(46_compare R133). -/
def State.compare (s : State) (reg m : Byte) : State :=
  (s.setFlag .carry (decide (m.toNat ≤ reg.toNat))).setNZ (reg - m)

/-- BIT: Z from `A & M`, N and V from bits 7 and 6 of M (43_logic R121). -/
def State.bitTest (s : State) (m : Byte) : State :=
  ((s.setFlag .zero (s.a &&& m == 0)).setFlag .negative (m.getLsbD 7)).setFlag .overflow
    (m.getLsbD 6)

/-- The copy of SR that is pushed: Unused forced to 1, Break forced to `b`
(60_exceptions R204, 10_state R23, R24). -/
def pushedStatus (sr : Byte) (b : Bool) : Byte :=
  (sr &&& ~~~0x30#8) ||| 0x20#8 ||| (BitVec.ofNat 8 b.toNat <<< 4)

end Sys2Proof.Machine
end

