-- ==== Sys2Proof/Machine/Memory.lean ====
section
/-! DEFINITION. The memory contract: `read` and `write` of one byte, over the canonical list
(20_memory R31-R33, R36, R39). Laws/Memory.lean proves that `write` keeps the form. -/

namespace Sys2Proof.Machine

/-- What an address nothing has written reads as: "zero-initialized at creation" (20_memory R33). -/
def Memory.unlisted : Byte := 0

/-- The byte at an address (20_memory R32). The list is sorted, so a key above the address ends the
search. -/
def Memory.read : Memory → Nat → Byte
  | [], _ => Memory.unlisted
  | (k, b) :: rest, addr =>
    if addr < k then Memory.unlisted else if addr = k then b else Memory.read rest addr

/-- Stores a byte (20_memory R32). Storing what an unlisted address reads as removes the entry. -/
def Memory.write : Memory → Nat → Byte → Memory
  | [], addr, v => if v = Memory.unlisted then [] else [(addr, v)]
  | (k, b) :: rest, addr, v =>
    if addr < k then
      if v = Memory.unlisted then (k, b) :: rest else (addr, v) :: (k, b) :: rest
    else if addr = k then
      if v = Memory.unlisted then rest else (addr, v) :: rest
    else (k, b) :: Memory.write rest addr v

/-- Canonical from `lo` on: addresses strictly rising from at least `lo`, all below 65536, and no
entry that reads as an unlisted address does. -/
def Memory.wfFrom (lo : Nat) : Memory → Bool
  | [] => true
  | (k, b) :: rest =>
    decide (lo ≤ k) && decide (k < 65536) && decide (b ≠ Memory.unlisted) &&
      Memory.wfFrom (k + 1) rest

/-- The canonical form of the whole memory. -/
def Memory.wf (m : Memory) : Bool := Memory.wfFrom 0 m

end Sys2Proof.Machine
end

