-- ==== Sys2Proof/Machine/Ops.lean ====
section
/-! DEFINITION. The named operations over memory and registers: the memory primitives (00_scope R7),
the stack (R8), entering an interrupt and returning from one (60_exceptions R204, R161), the host's
`irq()`, `nmi()` and `reset()` (R206, R207, R230), and raising InvalidOpcode (R163, R201). -/

namespace Sys2Proof.Machine

/-- `MemRead(addr, 1)` (00_scope R7, 20_memory R32). -/
def State.memRead (s : State) (addr : Word) : Byte := Memory.read s.mem addr.toNat

/-- `MemWrite(addr, 1, v)` (00_scope R7, 20_memory R32). -/
def State.memWrite (s : State) (addr : Word) (v : Byte) : State :=
  s.setMem (Memory.write s.mem addr.toNat v)

/-- `Read16(a)`: little-endian, the second byte's address taken modulo 2^16 (00_scope R7, D3). -/
def State.read16 (s : State) (addr : Word) : Word :=
  concat16 (s.memRead (addr + 1)) (s.memRead addr)

/-- `Read16ZP(p)`: the second byte's address wraps within page 0 (00_scope R7). -/
def State.read16ZeroPage (s : State) (p : Byte) : Word :=
  concat16 (s.memRead (zext16 (p + 1))) (s.memRead (zext16 p))

/-- The stack address an index selects: `0x0100 | SP` (10_state R17, 20_memory R43). -/
def stackAddress (sp : Byte) : Word := 0x0100#16 ||| zext16 sp

/-- `Push(v)`: store, then decrement (00_scope R8). -/
def State.push (s : State) (v : Byte) : State :=
  (s.memWrite (stackAddress s.sp) v).setSp (s.sp - 1)

/-- The state after `Pop()`: SP incremented (00_scope R8). -/
def State.afterPop (s : State) : State := s.setSp (s.sp + 1)

/-- The byte `Pop()` returns: the one SP selects once incremented (00_scope R8). -/
def State.popped (s : State) : Byte := s.memRead (stackAddress (s.sp + 1))

/-- Pushes a 16-bit value, the high byte first (20_memory R37). -/
def State.pushWord (s : State) (w : Word) : State := (s.push (hiByte w)).push (loByte w)

/-- Two pops, the low byte first (48_control_flow R143): the word. -/
def State.poppedWord (s : State) : Word := concat16 s.afterPop.popped s.popped

/-- `EnterInterrupt(vector, b, ret)`: pushes the return address and the status with Unused forced 1
and Break forced `b`, sets I, and loads PC from the vector (60_exceptions R204). -/
def State.enterInterrupt (s : State) (vector : Word) (b : Bool) (ret : Word) : State :=
  let pushed := (s.pushWord ret).push (pushedStatus s.sr b)
  let masked := pushed.setFlag .interruptDisable true
  masked.setPc (masked.read16 vector)

/-- The return from an interrupt: SR verbatim, then PC low and high, with no increment
(49_flags_system R161, 60_exceptions R210). -/
def State.leaveInterrupt (s : State) : State :=
  let t := s.afterPop
  (t.afterPop.afterPop.setSr s.popped).setPc t.poppedWord

/-- `irq()`: no effect while I = 1, and the request is lost (60_exceptions R206, D14). -/
def State.irq (s : State) : State :=
  if s.flag .interruptDisable then s else s.enterInterrupt Config.irqVector false s.pc

/-- `nmi()`: the same sequence through the NMI vector, whatever I holds (60_exceptions R207, C3). -/
def State.nmi (s : State) : State := s.enterInterrupt Config.nmiVector false s.pc

/-- `reset()`: I set, PC from the RESET vector, SP to RESET_SP, I cleared, nothing else
(70_reset R230, R231). -/
def State.resetCall (s : State) : State :=
  let masked := s.setFlag .interruptDisable true
  let vectored := masked.setPc (masked.read16 Config.resetVector)
  ((vectored.setSp s.params.resetSp).setFlag .interruptDisable false).setResetDone true

/-- Raises `InvalidOpcode(op, addr)` for an opcode fetched at PC: PC has advanced by one, the record
has one more entry, nothing else has changed (49_flags_system R163, 60_exceptions R201). -/
def State.raiseInvalidOpcode (s : State) (op : Byte) : State :=
  (s.setPc (s.pc + 1)).setFaults (s.faults ++ [{ op := op, addr := s.pc }])

end Sys2Proof.Machine
end

