-- ==== Sys2Proof/Machine/Operands.lean ====
section
/-! DEFINITION. The thirteen resolvers (40_addressing_modes R66-R80), the operand access of a handler
(00_scope R11), and the shapes the handlers share. A handler runs with PC already at the next
instruction (10_state R27). -/

namespace Sys2Proof.Machine

/-- `AddressingResult` (40_addressing_modes R66). `ea` has no meaning, and is 0, in the Accumulator
and Implied modes (log 13). -/
structure Resolved where
  ea : Word
  additionalCycles : Nat
  isAcc : Bool
  deriving DecidableEq, Repr

/-- The page-cross flag: 1 when the high bytes differ (40_addressing_modes R81). -/
def pageCross (base ea : Word) : Nat := if hiByte ea = hiByte base then 0 else 1

/-- The state after the fetch of an instruction's opcode and operand bytes: PC is the address of the
instruction that follows (10_state R27, 40_addressing_modes R67). -/
def State.afterFetch (s : State) (i : Instr) : State := s.setPc (s.pc + BitVec.ofNat 16 i.length)

/-- The resolver of each mode, in the state after the fetch (40_addressing_modes R68-R80). -/
def State.resolve (t : State) : Operand → Resolved
  | .implied => ⟨0, 0, false⟩
  | .accumulator => ⟨0, 0, true⟩
  | .immediate _ => ⟨t.pc - 1, 0, false⟩
  | .zeroPage ll => ⟨zext16 ll, 0, false⟩
  | .zeroPageX ll => ⟨zext16 (ll + t.x), 0, false⟩
  | .zeroPageY ll => ⟨zext16 (ll + t.y), 0, false⟩
  | .absolute hhll => ⟨hhll, 0, false⟩
  | .absoluteX hhll => ⟨hhll + zext16 t.x, pageCross hhll (hhll + zext16 t.x), false⟩
  | .absoluteY hhll => ⟨hhll + zext16 t.y, pageCross hhll (hhll + zext16 t.y), false⟩
  | .indirect hhll =>
    ⟨concat16 (t.memRead (concat16 (hiByte hhll) (loByte hhll + 1))) (t.memRead hhll), 0, false⟩
  | .indirectX ll => ⟨t.read16ZeroPage (ll + t.x), 0, false⟩
  | .indirectY ll =>
    ⟨t.read16ZeroPage ll + zext16 t.y,
      pageCross (t.read16ZeroPage ll) (t.read16ZeroPage ll + zext16 t.y), false⟩
  | .relative off => ⟨t.pc + sext16 off, 0, false⟩

/-- `Operand()`: A in the Accumulator mode, else the byte at EA (00_scope R11). The Immediate EA is the
address of the operand byte the fetch has just read, so that byte is the operand (R69; log 10). -/
def State.operandValue (t : State) (o : Operand) : Byte :=
  match o with
  | .immediate imm => imm
  | .accumulator => t.a
  | .implied | .zeroPage _ | .zeroPageX _ | .zeroPageY _ | .absolute _ | .absoluteX _ => t.memRead (t.resolve o).ea
  | .absoluteY _ | .indirect _ | .indirectX _ | .indirectY _ | .relative _ => t.memRead (t.resolve o).ea

/-- `WriteBack(v)`: A in the Accumulator mode, else the byte at EA (00_scope R11). -/
def State.writeBack (t : State) (r : Resolved) (v : Byte) : State :=
  if r.isAcc then t.setA v else t.memWrite r.ea v

/-- The end of a completed step: CYC grows by the step's cycles, which the step returns
(30_encoding R55, 70_reset R235, R236). -/
def State.complete (t : State) (i : Instr) (r : Resolved) (extraOp : Nat) : Result :=
  .next (t.setCyc (t.cyc + stepCycles i r.additionalCycles extraOp))

/-- A read-class instruction: one read of the operand, then `f` on its value (20_memory R44). -/
def State.readInstr (s : State) (i : Instr) (f : State → Byte → State) : Result :=
  let t := s.afterFetch i
  (f t (t.operandValue i.operand)).complete i (t.resolve i.operand) 0

/-- A store: one write at EA and no read (20_memory R44). -/
def State.storeInstr (s : State) (i : Instr) (v : Byte) : Result :=
  let t := s.afterFetch i
  let r := t.resolve i.operand
  (t.memWrite r.ea v).complete i r 0

/-- A shift or rotate: read, C from the bit shifted out, write back, SetNZ (44_shift_rotate R122). The
incoming C is read before C is overwritten. -/
def State.shiftInstr (s : State) (i : Instr) (f : Byte → Bool → ShiftResult) : Result :=
  let t := s.afterFetch i
  let r := t.resolve i.operand
  let sh := f (t.operandValue i.operand) (t.flag .carry)
  (((t.setFlag .carry sh.out).writeBack r sh.res).setNZ sh.res).complete i r 0

/-- INC and DEC: one read, one write at EA, SetNZ (45_inc_dec R127, R128). -/
def State.modifyInstr (s : State) (i : Instr) (f : Byte → Byte) : Result :=
  let t := s.afterFetch i
  let r := t.resolve i.operand
  let v := f (t.operandValue i.operand)
  ((t.memWrite r.ea v).setNZ v).complete i r 0

/-- An Implied instruction that computes on registers, the stack or a vector (40_addressing_modes
R80). -/
def State.impliedInstr (s : State) (i : Instr) (f : State → State) : Result :=
  let t := s.afterFetch i
  (f t).complete i (t.resolve .implied) 0

/-- A control transfer to `r.EA` after `f` (48_control_flow R141, R142). -/
def State.jumpInstr (s : State) (i : Instr) (f : State → State) : Result :=
  let t := s.afterFetch i
  let r := t.resolve i.operand
  ((f t).setPc r.ea).complete i r 0

/-- `Branch(cond)`: a taken branch costs 1 more, and 1 more again when its target's page differs from
the page of the instruction after the branch (48_control_flow R144). -/
def State.branchInstr (s : State) (i : Instr) (cond : Bool) : Result :=
  let t := s.afterFetch i
  let r := t.resolve i.operand
  (if cond then t.setPc r.ea else t).complete i r (if cond then 1 + pageCross t.pc r.ea else 0)

end Sys2Proof.Machine
end

