-- ==== Sys2Proof/Machine/Arith.lean ====
section
/-! DEFINITION. ADC and SBC (42_arithmetic R113, R114); the adders are in Flags.lean. -/

namespace Sys2Proof.Machine

/-- ADC: A, C, V, N and Z from the sum (R113). -/
def execAdc (o : Operand) (s : State) : Result :=
  s.readInstr (.adc o) fun t m => t.setAlu (t.adcResult m)

/-- SBC: A, C, V, N and Z from the difference (R114). -/
def execSbc (o : Operand) (s : State) : Result :=
  s.readInstr (.sbc o) fun t m => t.setAlu (t.sbcResult m)

end Sys2Proof.Machine
end

