-- ==== Sys2Proof/Machine/Compare.lean ====
section
/-! DEFINITION. Compares: C, N and Z, no register (46_compare R133-R136). -/

namespace Sys2Proof.Machine

/-- CMP (R134). -/
def execCmp (o : Operand) (s : State) : Result :=
  s.readInstr (.cmp o) fun t m => t.compare t.a m

/-- CPX (R135). -/
def execCpx (o : Operand) (s : State) : Result :=
  s.readInstr (.cpx o) fun t m => t.compare t.x m

/-- CPY (R136). -/
def execCpy (o : Operand) (s : State) : Result :=
  s.readInstr (.cpy o) fun t m => t.compare t.y m

end Sys2Proof.Machine
end

