-- ==== Sys2Proof/Machine/Control.lean ====
section
/-! DEFINITION. Jumps, subroutines and branches (48_control_flow R141-R152). -/

namespace Sys2Proof.Machine

/-- JMP: `PC <- r.EA` (R141). -/
def execJmp (o : Operand) (s : State) : Result :=
  s.jumpInstr (.jmp o) fun t => t

/-- JSR: pushes PC - 1, the address of its own last byte, then jumps to the target the resolver has read
(R142, C1, D18). -/
def execJsr (target : Word) (s : State) : Result :=
  s.jumpInstr (.jsr target) fun t => t.pushWord (t.pc - 1)

/-- RTS: pops PC low then high, and adds 1 (R143). -/
def execRts (s : State) : Result :=
  s.impliedInstr .rts fun t => t.afterPop.afterPop.setPc (t.poppedWord + 1)

/-- BCC: `Branch(SR.C = 0)` (R145). -/
def execBcc (off : Byte) (s : State) : Result :=
  s.branchInstr (.bcc off) (!s.flag .carry)

/-- BCS: `Branch(SR.C = 1)` (R146). -/
def execBcs (off : Byte) (s : State) : Result :=
  s.branchInstr (.bcs off) (s.flag .carry)

/-- BEQ: `Branch(SR.Z = 1)` (R147). -/
def execBeq (off : Byte) (s : State) : Result :=
  s.branchInstr (.beq off) (s.flag .zero)

/-- BNE: `Branch(SR.Z = 0)` (R148). -/
def execBne (off : Byte) (s : State) : Result :=
  s.branchInstr (.bne off) (!s.flag .zero)

/-- BMI: `Branch(SR.N = 1)` (R149). -/
def execBmi (off : Byte) (s : State) : Result :=
  s.branchInstr (.bmi off) (s.flag .negative)

/-- BPL: `Branch(SR.N = 0)` (R150). -/
def execBpl (off : Byte) (s : State) : Result :=
  s.branchInstr (.bpl off) (!s.flag .negative)

/-- BVC: `Branch(SR.V = 0)` (R151). -/
def execBvc (off : Byte) (s : State) : Result :=
  s.branchInstr (.bvc off) (!s.flag .overflow)

/-- BVS: `Branch(SR.V = 1)` (R152). -/
def execBvs (off : Byte) (s : State) : Result :=
  s.branchInstr (.bvs off) (s.flag .overflow)

end Sys2Proof.Machine
end

