-- ==== Sys2Proof/Machine/IncDec.lean ====
section
/-! DEFINITION. Increments and decrements: 8-bit wrap, N and Z, neither C nor V (45_inc_dec R127-R132). -/

namespace Sys2Proof.Machine

/-- INC (R127). -/
def execInc (o : Operand) (s : State) : Result :=
  s.modifyInstr (.inc o) fun v => v + 1

/-- DEC (R128). -/
def execDec (o : Operand) (s : State) : Result :=
  s.modifyInstr (.dec o) fun v => v - 1

/-- INX (R129). -/
def execInx (s : State) : Result :=
  s.impliedInstr .inx fun t => (t.setX (t.x + 1)).setNZ (t.x + 1)

/-- INY (R130). -/
def execIny (s : State) : Result :=
  s.impliedInstr .iny fun t => (t.setY (t.y + 1)).setNZ (t.y + 1)

/-- DEX (R131). -/
def execDex (s : State) : Result :=
  s.impliedInstr .dex fun t => (t.setX (t.x - 1)).setNZ (t.x - 1)

/-- DEY (R132). -/
def execDey (s : State) : Result :=
  s.impliedInstr .dey fun t => (t.setY (t.y - 1)).setNZ (t.y - 1)

end Sys2Proof.Machine
end

