-- ==== Sys2Proof/Machine/LoadStore.lean ====
section
/-! DEFINITION. Loads, stores and transfers (41_load_store_transfer R100-R111). -/

namespace Sys2Proof.Machine

/-- LDA: `A <- v; SetNZ(v)` (R100). -/
def execLda (o : Operand) (s : State) : Result :=
  s.readInstr (.lda o) fun t v => (t.setA v).setNZ v

/-- LDX: `X <- v; SetNZ(v)` (R101). -/
def execLdx (o : Operand) (s : State) : Result :=
  s.readInstr (.ldx o) fun t v => (t.setX v).setNZ v

/-- LDY: `Y <- v; SetNZ(v)` (R102). -/
def execLdy (o : Operand) (s : State) : Result :=
  s.readInstr (.ldy o) fun t v => (t.setY v).setNZ v

/-- STA: `MemWrite(r.EA, 1, A)`, no flag (R103). -/
def execSta (o : Operand) (s : State) : Result :=
  s.storeInstr (.sta o) s.a

/-- STX: `MemWrite(r.EA, 1, X)`, no flag (R104). -/
def execStx (o : Operand) (s : State) : Result :=
  s.storeInstr (.stx o) s.x

/-- STY: `MemWrite(r.EA, 1, Y)`, no flag (R105). -/
def execSty (o : Operand) (s : State) : Result :=
  s.storeInstr (.sty o) s.y

/-- TAX: `X <- A; SetNZ(X)` (R106). -/
def execTax (s : State) : Result :=
  s.impliedInstr .tax fun t => (t.setX t.a).setNZ t.a

/-- TXA: `A <- X; SetNZ(A)` (R107). -/
def execTxa (s : State) : Result :=
  s.impliedInstr .txa fun t => (t.setA t.x).setNZ t.x

/-- TAY: `Y <- A; SetNZ(Y)` (R108). -/
def execTay (s : State) : Result :=
  s.impliedInstr .tay fun t => (t.setY t.a).setNZ t.a

/-- TYA: `A <- Y; SetNZ(A)` (R109). -/
def execTya (s : State) : Result :=
  s.impliedInstr .tya fun t => (t.setA t.y).setNZ t.y

/-- TSX: `X <- SP; SetNZ(X)` (R110). -/
def execTsx (s : State) : Result :=
  s.impliedInstr .tsx fun t => (t.setX t.sp).setNZ t.sp

/-- TXS: `SP <- X`, no flag (R111). -/
def execTxs (s : State) : Result :=
  s.impliedInstr .txs fun t => t.setSp t.x

end Sys2Proof.Machine
end

