-- ==== Sys2Proof/Machine/Logic.lean ====
section
/-! DEFINITION. AND, ORA, EOR and BIT (43_logic R118-R121). -/

namespace Sys2Proof.Machine

/-- AND: `A <- A & m; SetNZ(A)` (R118). -/
def execAnd (o : Operand) (s : State) : Result :=
  s.readInstr (.and o) fun t m => (t.setA (t.a &&& m)).setNZ (t.a &&& m)

/-- ORA: `A <- A | m; SetNZ(A)` (R119). -/
def execOra (o : Operand) (s : State) : Result :=
  s.readInstr (.ora o) fun t m => (t.setA (t.a ||| m)).setNZ (t.a ||| m)

/-- EOR: `A <- A ^ m; SetNZ(A)` (R120). -/
def execEor (o : Operand) (s : State) : Result :=
  s.readInstr (.eor o) fun t m => (t.setA (t.a ^^^ m)).setNZ (t.a ^^^ m)

/-- BIT: Z, N and V; A is not written (R121). -/
def execBit (o : Operand) (s : State) : Result :=
  s.readInstr (.bit o) fun t m => t.bitTest m

end Sys2Proof.Machine
end

