-- ==== Sys2Proof/Machine/Shift.lean ====
section
/-! DEFINITION. Shifts and rotates, on A or on memory (44_shift_rotate R122-R126). -/

namespace Sys2Proof.Machine

/-- ASL (R123). -/
def execAsl (o : Operand) (s : State) : Result :=
  s.shiftInstr (.asl o) shiftLeft

/-- LSR (R124). -/
def execLsr (o : Operand) (s : State) : Result :=
  s.shiftInstr (.lsr o) shiftRight

/-- ROL (R125). -/
def execRol (o : Operand) (s : State) : Result :=
  s.shiftInstr (.rol o) rotateLeft

/-- ROR (R126). -/
def execRor (o : Operand) (s : State) : Result :=
  s.shiftInstr (.ror o) rotateRight

end Sys2Proof.Machine
end

