-- ==== Sys2Proof/Machine/Stack.lean ====
section
/-! DEFINITION. The stack instructions (47_stack R137-R140). -/

namespace Sys2Proof.Machine

/-- PHA: `Push(A)` (R137). -/
def execPha (s : State) : Result :=
  s.impliedInstr .pha fun t => t.push t.a

/-- PLA: `A <- Pop(); SetNZ(A)` (R138). -/
def execPla (s : State) : Result :=
  s.impliedInstr .pla fun t => (t.afterPop.setA t.popped).setNZ t.popped

/-- PHP: `Push(SR | 0x30)`; SR itself is kept (R139, D9). -/
def execPhp (s : State) : Result :=
  s.impliedInstr .php fun t => t.push (t.sr ||| 0x30)

/-- PLP: `SR <- Pop()`, all eight bits (R140, C8). -/
def execPlp (s : State) : Result :=
  s.impliedInstr .plp fun t => t.afterPop.setSr t.popped

end Sys2Proof.Machine
end

