-- ==== Sys2Proof/Machine/System.lean ====
section
/-! DEFINITION. Flag instructions, BRK, RTI, NOP and the invalid opcode (49_flags_system R153-R163). -/

namespace Sys2Proof.Machine

/-- CLC: `SR.C <- 0` (R153). -/
def execClc (s : State) : Result :=
  s.impliedInstr .clc fun t => t.setFlag .carry false

/-- SEC: `SR.C <- 1` (R154). -/
def execSec (s : State) : Result :=
  s.impliedInstr .sec fun t => t.setFlag .carry true

/-- CLI: `SR.I <- 0` (R155). -/
def execCli (s : State) : Result :=
  s.impliedInstr .cli fun t => t.setFlag .interruptDisable false

/-- SEI: `SR.I <- 1` (R156). -/
def execSei (s : State) : Result :=
  s.impliedInstr .sei fun t => t.setFlag .interruptDisable true

/-- CLD: `SR.D <- 0` (R157). -/
def execCld (s : State) : Result :=
  s.impliedInstr .cld fun t => t.setFlag .decimal false

/-- SED: `SR.D <- 1` (R158). -/
def execSed (s : State) : Result :=
  s.impliedInstr .sed fun t => t.setFlag .decimal true

/-- CLV: `SR.V <- 0` (R159). -/
def execClv (s : State) : Result :=
  s.impliedInstr .clv fun t => t.setFlag .overflow false

/-- BRK: EnterInterrupt through the IRQ/BRK vector with Break pushed 1, returning to BRK's address + 2
(R160, 30_encoding R58, 60_exceptions R204). -/
def execBrk (s : State) : Result :=
  s.impliedInstr .brk fun t => t.enterInterrupt Config.irqVector true (t.pc + 1)

/-- RTI: SR verbatim, then PC without an increment (R161, D10). -/
def execRti (s : State) : Result :=
  s.impliedInstr .rti fun t => t.leaveInterrupt

/-- NOP: nothing; PC has already advanced (R162). -/
def execNop (s : State) : Result :=
  s.impliedInstr .nop fun t => t

/-- INVALID: raises InvalidOpcode, which the fault record keeps; no cycle is counted (R163,
60_exceptions R201; log 7). -/
def execInvalid (op : Byte) (s : State) : Result :=
  .next (s.raiseInvalidOpcode op)

end Sys2Proof.Machine
end

