-- ==== Sys2Proof/Machine/Sequencer.lean ====
section
/-! DEFINITION. Fetching an instruction, `fetch_execute_next()` (30_encoding R55), and the host's
moves (60_exceptions R215). Step.lean only calls these. -/

namespace Sys2Proof.Machine

/-- The fault record's first entry where it keeps the core from stepping: `ON_INVALID` is `fatal`
(60_exceptions R201). -/
def State.haltedBy (s : State) : Option InvalidOpcode :=
  match s.params.onInvalid with
  | .fatal => s.faults.head?
  | .skip => none

/-- The instruction at PC, from the bytes at PC, PC + 1 and PC + 2 modulo 2^16. Reading a byte the
instruction does not have changes nothing (20_memory R36, R38; log 11). -/
def State.fetchInstr (s : State) : Instr :=
  instrOf (s.memRead s.pc) (s.memRead (s.pc + 1)) (s.memRead (s.pc + 2))

/-- `fetch_execute_next()` (30_encoding R55): refused before the first reset (D20), no step under
`fatal` once an invalid opcode is recorded (60_exceptions R201), else one whole instruction.
DESIGN CHOICE (log 22, safe): the refusal is the mark that D20 keeps; a refused step has no next state
and no field records it, so no later `reset()` follows it in a run. -/
def fetchExecute (s : State) : Result :=
  if s.resetDone then
    match s.haltedBy with
    | some f => .fault (.invalidOpcode f.op f.addr)
    | none => exec s.fetchInstr s
  else .refused .notReset

/-- One move of the host between steps (60_exceptions R215). `irq()` and `nmi()` before the first reset
have no move (70_reset R232, D22; log 9). DESIGN CHOICE (log 24, unsafe): under `fatal` with a fault
recorded the host's other calls are still made, and only `fetch_execute_next()` stops. -/
def hostMove (h : HostAction) (s : State) : Result :=
  match h with
  | .fetchExecute => fetchExecute s
  | .irq => if s.resetDone then .next s.irq else .refused .interruptBeforeReset
  | .nmi => if s.resetDone then .next s.nmi else .refused .interruptBeforeReset
  | .reset => .next s.resetCall
  | .memWrite addr v => .next (s.memWrite addr v)

/-- The next event of the machine: the host's next move, `fetch_execute_next()` once the script is
empty (D23; log 8). -/
def nextEvent (s : State) : Result :=
  match s.script with
  | [] => fetchExecute s
  | h :: rest => hostMove h (s.setScript rest)

/-- Stores bytes at consecutive addresses from `addr` on, modulo 2^16: the loader (20_memory R33). -/
def State.load (s : State) (addr : Word) : List Byte → State
  | [] => s
  | b :: rest => (s.memWrite addr b).load (addr + 1) rest

/-- The test harness of 95_test_vectors W9: the instruction's bytes at PC, `resetDone` set, an empty
fault record and no host call before the next `fetch_execute_next()` (log 16). -/
def State.harness (s : State) (bytes : List Byte) : State :=
  ((((s.load s.pc bytes).setResetDone true).setFaults []).setScript [])

end Sys2Proof.Machine
end

