-- ==== Sys2Proof/Machine/Step.lean ====
section
/-! DEFINITION. One step of the machine, and the harness that places one instruction. Both only call
Sequencer.lean and Decode.lean. -/

namespace Sys2Proof.Machine

/-- One step: the host's next move, by default one `fetch_execute_next()` (30_encoding R55,
60_exceptions R215). -/
def step (s : State) : Host.Outcome State Fault Refusal := nextEvent s

/-- `s` with the instruction of the bits `w` stored at PC, so that the next step runs it (log 16). -/
def State.withFetchWord (s : State) (nbits w : Nat) : State := s.harness (tableWordBytes nbits w)

end Sys2Proof.Machine
end

