-- ==== Sys2Proof/Safety.lean ====
section
/-! DEFINITION. What counts as a successful run (70_reset R240, 60_exceptions R201) and the invariant
of the machine's states. -/

namespace Sys2Proof.Machine

/-- A successful end: between calls, PC = `STOP_PC` and the fault record is empty (70_reset R240). -/
def State.endedAt (s : State) (stopPc : Word) : Bool := decide (s.pc = stopPc) && s.faults.isEmpty

/-- How a launch of at most so many steps ends (70_reset R240). -/
inductive RunEnd where
  /-- The first state between calls that is a successful end. -/
  | ended (s : State)
  /-- The machine stopped with a fault. -/
  | faulted (f : Fault)
  /-- A step was refused. -/
  | refused (r : Refusal)
  /-- No end so far: a run that never ends is a hang (U16). -/
  | running (s : State)
  deriving DecidableEq, Repr

/-- A launch with the stop address `stopPc`, followed for at most `fuel` steps (70_reset R240).
DESIGN CHOICE (log 21, unsafe): the state the launch starts from counts as a state between calls,
whether or not a reset has been made, so a run whose start state is a successful end ends after zero
steps. -/
def runTo (stopPc : Word) : Nat → State → RunEnd
  | fuel, s =>
    if s.endedAt stopPc then .ended s
    else
      match fuel with
      | 0 => .running s
      | n + 1 =>
        match step s with
        | .next t => runTo stopPc n t
        | .fault f => .faulted f
        | .refused r => .refused r

/-- The states a machine that has been reset can be in: the memory is canonical (log 14), a reset has
been made (10_state R29(d)), and the fault record holds invalid opcodes only (60_exceptions R201). -/
def State.Inv (s : State) : Prop :=
  Memory.wf s.mem = true ∧ s.resetDone = true ∧
    ∀ f ∈ s.faults, invalidOpcodes.contains f.op = true

end Sys2Proof.Machine
end

