-- ==== Sys2Proof/Certificates/Slice0/Obligations.lean ====
section
/-! DEFINITION. The statements for the provers, from the numbered rules of spec/. OBLIGATIONS.json
lists them; Tests/Slice0.lean holds a witness for each that has hypotheses. -/

namespace Sys2Proof.Stating

open Sys2Proof.Machine

/-- The effective address of `i` run in `s` (40_addressing_modes R66). -/
def eaAt (s : State) (i : Instr) : Word := ((s.afterFetch i).resolve i.operand).ea

/-- The value `Operand()` of `i` run in `s` (00_scope R11). -/
def valueAt (s : State) (i : Instr) : Byte := (s.afterFetch i).operandValue i.operand

/-- The resolver's `additional_cycles` of `i` run in `s` (40_addressing_modes R81). -/
def crossAt (s : State) (i : Instr) : Nat := ((s.afterFetch i).resolve i.operand).additionalCycles

/-- `s` with PC at the instruction after `i` and CYC grown by `cycles`: every other field is that of
`s`, so a next state written as an update of it says what stays unchanged. -/
def after (s : State) (i : Instr) (cycles : Nat) : State :=
  { s with pc := s.pc + BitVec.ofNat 16 i.length, cyc := s.cyc + cycles }

/-- The step's count by 70_reset R235, for an instruction whose `extraOp` is 0. -/
def plainCycles (s : State) (i : Instr) : Nat :=
  baseCycles i + (if countsPageCross i then crossAt s i else 0)

/-- All eight bits of a status byte. -/
def Bits (sr : Byte) (bits : StatusFlag → Bool) : Prop := ∀ f : StatusFlag, sr.getLsbD f.bit = bits f

/-- N and Z of a value, the other six bits as in `s` (00_scope R9). -/
def nz (s : State) (v : Byte) : StatusFlag → Bool
  | .negative => v.getLsbD 7
  | .zero => decide (v = 0)
  | .carry => s.flag .carry
  | .interruptDisable => s.flag .interruptDisable
  | .decimal => s.flag .decimal
  | .brk => s.flag .brk
  | .unused => s.flag .unused
  | .overflow => s.flag .overflow

/-- One bit replaced. -/
def withBit (bits : StatusFlag → Bool) (f : StatusFlag) (b : Bool) : StatusFlag → Bool :=
  fun g => if g = f then b else bits g

/-- `m'` holds `v` at `a` and at every other address what `m` holds. -/
def Stored (m m' : Memory) (a : Word) (v : Byte) : Prop :=
  ∀ b : Word, Memory.read m' b.toNat = if b = a then v else Memory.read m b.toNat

/-- The stack slot of an index: 256 + SP as a number (10_state R17). -/
def slot (sp : Byte) : Word := BitVec.ofNat 16 (256 + sp.toNat)

/-- `m'` is `m` after the pushes of `vs`, first one first, from the index `sp` on: the bytes of `vs` at
falling indices modulo 256, every other address as in `m` (00_scope R8). Fewer than 256 of them. -/
def Pushed (m m' : Memory) (sp : Byte) (vs : List Byte) : Prop :=
  (∀ k, (h : k < vs.length) →
    Memory.read m' (slot (sp - BitVec.ofNat 8 k)).toNat = vs[k]) ∧
  ∀ b : Word, (∀ k, k < vs.length → b ≠ slot (sp - BitVec.ofNat 8 k)) →
    Memory.read m' b.toNat = Memory.read m b.toNat

/-- The rows of a mnemonic in the listing of 30_encoding R54, for all operand bytes `b` and words `w`:
each encodes as its opcode and its operand bytes, has its base cycles and its page-cross mask, and
every mode the mnemonic takes has a row. -/
def Rows (mk : Operand → Instr) (rows : Byte → Word → List (Operand × Byte × Nat × Bool)) : Prop :=
  (∀ b w, ∀ r ∈ rows b w,
    encode (mk r.1) = r.2.1 :: r.1.bytes ∧ baseCycles (mk r.1) = r.2.2.1 ∧
      countsPageCross (mk r.1) = r.2.2.2) ∧
  ∀ o, (mk o).wf = true → ∃ b w, o ∈ (rows b w).map Prod.fst

/-- The eight rows of the read-class mnemonics with all eight modes, in the order of R54's columns. -/
def readRows (imm zp zpX abs absX absY indX indY : Byte) (b : Byte) (w : Word) :
    List (Operand × Byte × Nat × Bool) :=
  [(.immediate b, imm, 2, false), (.zeroPage b, zp, 3, false), (.zeroPageX b, zpX, 4, false),
   (.absolute w, abs, 4, false), (.absoluteX w, absX, 4, true), (.absoluteY w, absY, 4, true),
   (.indirectX b, indX, 6, false), (.indirectY b, indY, 5, true)]

/-- The five rows of a shift or rotate. -/
def shiftRows (acc zp zpX abs absX : Byte) (b : Byte) (w : Word) :
    List (Operand × Byte × Nat × Bool) :=
  [(.accumulator, acc, 2, false), (.zeroPage b, zp, 5, false), (.zeroPageX b, zpX, 6, false),
   (.absolute w, abs, 6, false), (.absoluteX w, absX, 7, false)]

/-- The four rows of INC and DEC. -/
def modifyRows (zp zpX abs absX : Byte) (b : Byte) (w : Word) : List (Operand × Byte × Nat × Bool) :=
  [(.zeroPage b, zp, 5, false), (.zeroPageX b, zpX, 6, false), (.absolute w, abs, 6, false),
   (.absoluteX w, absX, 7, false)]

/-- The three rows of CPX and CPY. -/
def indexRows (imm zp abs : Byte) (b : Byte) (w : Word) : List (Operand × Byte × Nat × Bool) :=
  [(.immediate b, imm, 2, false), (.zeroPage b, zp, 3, false), (.absolute w, abs, 4, false)]

/-- A load: the register that `set` writes takes the value, N and Z follow it, the rest stays. -/
def LoadsInto (mk : Operand → Instr) (set : State → Byte → State) : Prop :=
  ∀ s o, ∃ sr, Bits sr (nz s (valueAt s (mk o))) ∧
    exec (mk o) s =
      .next { set (after s (mk o) (plainCycles s (mk o))) (valueAt s (mk o)) with sr := sr }

/-- A store of `v s` at EA; its cycles are the base count whatever page it crosses. -/
def StoresFrom (mk : Operand → Instr) (v : State → Byte) : Prop :=
  ∀ s o, Memory.wf s.mem = true →
    ∃ m, Stored s.mem m (eaAt s (mk o)) (v s) ∧
      exec (mk o) s = .next { after s (mk o) (baseCycles (mk o)) with mem := m }

/-- An instruction without operand: register `set` takes `v s`, N and Z follow it, 2 cycles. -/
def SetsRegister (i : Instr) (op : Byte) (set : State → Byte → State) (v : State → Byte) : Prop :=
  encode i = [op] ∧
  ∀ s, ∃ sr, Bits sr (nz s (v s)) ∧ exec i s = .next { set (after s i 2) (v s) with sr := sr }

/-- A logic instruction: A takes `f A m`, N and Z follow it. -/
def Combines (mk : Operand → Instr) (f : Byte → Byte → Byte) : Prop :=
  ∀ s o, ∃ sr, Bits sr (nz s (f s.a (valueAt s (mk o)))) ∧
    exec (mk o) s =
      .next { after s (mk o) (plainCycles s (mk o)) with a := f s.a (valueAt s (mk o)), sr := sr }

/-- A read-modify-write in a memory mode: the byte at EA takes `f m`, SR the bits `g m`; the cycles
are the base count. -/
def ModifiesMemory (mk : Operand → Instr) (f : State → Byte → Byte)
    (g : State → Byte → StatusFlag → Bool) : Prop :=
  ∀ s o, o.isModify = true → Memory.wf s.mem = true →
    ∃ m sr, Stored s.mem m (eaAt s (mk o)) (f s (Memory.read s.mem (eaAt s (mk o)).toNat)) ∧
      Bits sr (g s (Memory.read s.mem (eaAt s (mk o)).toNat)) ∧
      exec (mk o) s = .next { after s (mk o) (baseCycles (mk o)) with mem := m, sr := sr }

/-- A shift or rotate of A: A takes `f A`, SR the bits `g A`, no memory changes, 2 cycles. -/
def ModifiesA (mk : Operand → Instr) (f : State → Byte → Byte) (g : State → Byte → StatusFlag → Bool) :
    Prop :=
  ∀ s, ∃ sr, Bits sr (g s s.a) ∧
    exec (mk .accumulator) s = .next { after s (mk .accumulator) 2 with a := f s s.a, sr := sr }

/-- A compare of `reg s`: C is `reg >= m` unsigned, N and Z of the difference modulo 256, nothing
else (46_compare R133). -/
def Compares (mk : Operand → Instr) (reg : State → Byte) : Prop :=
  ∀ s o, ∃ sr,
    Bits sr (withBit (nz s (reg s - valueAt s (mk o))) .carry
      (decide ((valueAt s (mk o)).toNat ≤ (reg s).toNat))) ∧
    exec (mk o) s = .next { after s (mk o) (plainCycles s (mk o)) with sr := sr }

/-- A branch on `cond`: 2 cycles not taken, 3 taken, 4 taken to another page than that of the
instruction after the branch; it writes PC and CYC only (48_control_flow R144). -/
def Branches (mk : Byte → Instr) (op : Byte) (cond : State → Bool) : Prop :=
  ∀ s off, encode (mk off) = [op, off] ∧
    exec (mk off) s =
      .next { s with
        pc := if cond s then s.pc + 2 + off.signExtend 16 else s.pc + 2
        cyc := s.cyc + (if cond s then
          (if (s.pc + 2 + off.signExtend 16).toNat / 256 = (s.pc + 2).toNat / 256 then 3 else 4)
          else 2) }

/-- A flag instruction: one bit takes `b`, no other effect, 2 cycles (49_flags_system R153-R159). -/
def SetsFlag (i : Instr) (op : Byte) (f : StatusFlag) (b : Bool) : Prop :=
  encode i = [op] ∧
  ∀ s, ∃ sr, Bits sr (withBit s.flag f b) ∧ exec i s = .next { after s i 2 with sr := sr }

/-- The state after an entry through `vector` with return address `ret` and the pushed status `p`:
three pushes, I set, PC from the vector (60_exceptions R204). -/
def Entered (s t : State) (vector ret : Word) (p : Byte) : Prop :=
  ∃ m sr, Pushed s.mem m s.sp [hiByte ret, loByte ret, p] ∧
    Bits sr (withBit s.flag .interruptDisable true) ∧
    t = { s with
      pc := concat16 (Memory.read s.mem (vector + 1).toNat) (Memory.read s.mem vector.toNat)
      sp := s.sp - 3, sr := sr, mem := m }

/-- The core may take the next instruction: it has been reset and no fault stops it. -/
def Enabled (s : State) : Prop :=
  s.resetDone = true ∧ (s.faults = [] ∨ s.params.onInvalid = .skip)

/-- The instructions that write each bit of SR (10_state R19-R26). -/
def writesFlag : StatusFlag → Instr → Bool
  | .carry, .adc _ | .carry, .sbc _ | .carry, .asl _ | .carry, .lsr _ | .carry, .rol _ => true
  | .carry, .ror _ | .carry, .cmp _ | .carry, .cpx _ | .carry, .cpy _ | .carry, .clc => true
  | .carry, .sec => true
  | .interruptDisable, .sei | .interruptDisable, .cli | .interruptDisable, .brk => true
  | .decimal, .sed | .decimal, .cld => true
  | .overflow, .adc _ | .overflow, .sbc _ | .overflow, .bit _ | .overflow, .clv => true
  | _, .plp | _, .rti => true
  | _, _ => false

/-- The instructions that store to memory (20_memory R44). -/
def stores : Instr → Bool
  | .sta _ | .stx _ | .sty _ | .inc _ | .dec _ => true
  | .asl o | .lsr o | .rol o | .ror o => o != .accumulator
  | .pha | .php | .jsr _ | .brk => true
  | _ => false

/-- The instructions that write A (10_state R14). -/
def writesA : Instr → Bool
  | .lda _ | .txa | .tya | .pla | .adc _ | .sbc _ | .and _ | .ora _ | .eor _ => true
  | .asl o | .lsr o | .rol o | .ror o => o == .accumulator
  | _ => false

/-- The instructions that write X (10_state R15). -/
def writesX : Instr → Bool
  | .ldx _ | .tax | .tsx | .inx | .dex => true
  | _ => false

/-- The instructions that write Y (10_state R16). -/
def writesY : Instr → Bool
  | .ldy _ | .tay | .iny | .dey => true
  | _ => false

/-- The instructions that write SP (10_state R17). -/
def writesSp : Instr → Bool
  | .txs | .pha | .php | .pla | .plp | .jsr _ | .rts | .brk | .rti => true
  | _ => false

/-- The value of a byte read as two decimal digits. -/
def bcd (v : Byte) : Nat := v.toNat / 16 * 10 + v.toNat % 16

/-- Both digits are at most 9. -/
def IsBcd (v : Byte) : Prop := v.toNat / 16 ≤ 9 ∧ v.toNat % 16 ≤ 9

end Sys2Proof.Stating

section

open Sys2Proof Sys2Proof.Machine Sys2Proof.Stating

/-! ### Encoding -/

/-- 30_encoding R51, R53: decoding an encoded well-formed instruction gives it back, with whatever
bytes follow left over. -/
def Obligations.DecodeOfEncodeIsTheInstruction : Prop :=
  ∀ (i : Instr) (rest : List Byte), i.wf = true → decode (encode i ++ rest) = .ok (i, rest)

/-- The other direction: whatever bytes are decoded, the instruction is well-formed and its encoding
is the bytes that were consumed (30_encoding R51, R53, R56). -/
def Obligations.EncodeOfDecodeIsTheBytes : Prop :=
  ∀ (bs rest : List Byte) (i : Instr), decode bs = .ok (i, rest) →
    i.wf = true ∧ bs = encode i ++ rest

/-- Words written out from the encodings of R100, R103, R113, R121, R123, R128, R134, R140, R141,
R142, R148, R160 and R163. -/
def Obligations.WordsOfEveryFamilyDecode : Prop :=
  decode [0xA9, 0x42] = .ok (.lda (.immediate 0x42), []) ∧
  decode [0x91, 0x20] = .ok (.sta (.indirectY 0x20), []) ∧
  decode [0x61, 0x20] = .ok (.adc (.indirectX 0x20), []) ∧
  decode [0x2C, 0x34, 0x12] = .ok (.bit (.absolute 0x1234), []) ∧
  decode [0x0A] = .ok (.asl .accumulator, []) ∧
  decode [0xDE, 0x00, 0x03] = .ok (.dec (.absoluteX 0x0300), []) ∧
  decode [0xD9, 0xF0, 0x12] = .ok (.cmp (.absoluteY 0x12F0), []) ∧
  decode [0x28] = .ok (.plp, []) ∧
  decode [0x6C, 0xFF, 0x30] = .ok (.jmp (.indirect 0x30FF), []) ∧
  decode [0x20, 0x00, 0x90] = .ok (.jsr 0x9000, []) ∧
  decode [0xD0, 0xFB] = .ok (.bne 0xFB, []) ∧
  decode [0x00, 0xFF] = .ok (.brk, [0xFF]) ∧
  decode [0x02] = .ok (.invalid 0x02, [])

/-- 30_encoding R53, R56: 151 mapped entries and 105 invalid bytes, and a byte is invalid exactly when
the table has no entry for it. -/
def Obligations.UnmappedBytesAreTheInvalidOnes : Prop :=
  instructionTable.length = 151 ∧ invalidOpcodes.length = 105 ∧
  ∀ op : Byte, instructionTable.lookup op.toNat = none ↔ invalidOpcodes.contains op = true

/-- 30_encoding R59, on the offset byte (the rule is marked general knowledge; log 17): the offset the
assembler emits takes a branch at `a` to its target, and it is emitted exactly for the targets within
-128 to +127 of the next instruction. R59 writes no modulus: that the target and its distance are
taken modulo 2^16 rests on the spec's decision D3 and is the model's reading of the range (log 23,
DEDUCED), by which a branch at 0xFFF0 to 0x0071 is in range. -/
def Obligations.AssembledBranchReachesItsTarget : Prop :=
  ∀ a target : Word,
    (∀ off, branchOffset a target = some off → a + 2 + off.signExtend 16 = target) ∧
    ((branchOffset a target).isSome = true ↔
      -128 ≤ (target - (a + 2)).toInt ∧ (target - (a + 2)).toInt ≤ 127)

/-! ### Addressing modes: `t` is the state after the fetch -/

/-- 40_addressing_modes R70, R71, R72: one operand byte, an address in page 0, no extra cycle; ZeroPageY
is a mode of LDX and STX only. -/
def Obligations.ZeroPageModesStayInPageZero : Prop :=
  ∀ (t : State) (ll : Byte),
    (∀ i : Instr, i.wf = true → i.operand = .zeroPageY ll →
      i = .ldx (.zeroPageY ll) ∨ i = .stx (.zeroPageY ll)) ∧
    ((Operand.zeroPage ll).bytes = [ll] ∧
      t.resolve (.zeroPage ll) = ⟨BitVec.ofNat 16 ll.toNat, 0, false⟩) ∧
    ((Operand.zeroPageX ll).bytes = [ll] ∧
      t.resolve (.zeroPageX ll) = ⟨BitVec.ofNat 16 ((ll.toNat + t.x.toNat) % 256), 0, false⟩) ∧
    ((Operand.zeroPageY ll).bytes = [ll] ∧
      t.resolve (.zeroPageY ll) = ⟨BitVec.ofNat 16 ((ll.toNat + t.y.toNat) % 256), 0, false⟩)

/-- 40_addressing_modes R73, R74, R75 (the wrap at 2^16 is the spec's decision D3): the little-endian
word, plus the index modulo 2^16; one extra cycle exactly when the high byte changes. -/
def Obligations.AbsoluteModesAddTheIndex : Prop :=
  ∀ (t : State) (ll hh : Byte),
    let w := concat16 hh ll
    w.toNat = hh.toNat * 256 + ll.toNat ∧
    ((Operand.absolute w).bytes = [ll, hh] ∧ t.resolve (.absolute w) = ⟨w, 0, false⟩) ∧
    ((Operand.absoluteX w).bytes = [ll, hh] ∧
      let r := t.resolve (.absoluteX w)
      r.ea.toNat = (w.toNat + t.x.toNat) % 65536 ∧ r.isAcc = false ∧
        r.additionalCycles = if r.ea.toNat / 256 = hh.toNat then 0 else 1) ∧
    ((Operand.absoluteY w).bytes = [ll, hh] ∧
      let r := t.resolve (.absoluteY w)
      r.ea.toNat = (w.toNat + t.y.toNat) % 65536 ∧ r.isAcc = false ∧
        r.additionalCycles = if r.ea.toNat / 256 = hh.toNat then 0 else 1)

/-- 40_addressing_modes R76: the pointer's high byte is read within the pointer's own page; only JMP
takes the mode. -/
def Obligations.IndirectWrapsWithinThePointersPage : Prop :=
  ∀ (t : State) (ll hh : Byte),
    (∀ i : Instr, i.wf = true → i.operand = .indirect (concat16 hh ll) →
      i = .jmp (.indirect (concat16 hh ll))) ∧
    (Operand.indirect (concat16 hh ll)).bytes = [ll, hh] ∧
    t.resolve (.indirect (concat16 hh ll)) =
      ⟨concat16 (t.memRead (BitVec.ofNat 16 (hh.toNat * 256 + (ll.toNat + 1) % 256)))
        (t.memRead (BitVec.ofNat 16 (hh.toNat * 256 + ll.toNat))), 0, false⟩

/-- 40_addressing_modes R77, R78: the pointer in page 0, whose second byte's address wraps there; X
added before it is read, or Y after, modulo 2^16, with one extra cycle exactly when that changes the
high byte (R81). -/
def Obligations.ZeroPagePointersWrapAndIndexY : Prop :=
  ∀ (t : State) (ll : Byte),
    let pointer := fun p : Nat => concat16 (t.memRead (BitVec.ofNat 16 ((p + 1) % 256)))
      (t.memRead (BitVec.ofNat 16 p))
    ((Operand.indirectX ll).bytes = [ll] ∧
      t.resolve (.indirectX ll) = ⟨pointer ((ll.toNat + t.x.toNat) % 256), 0, false⟩) ∧
    ((Operand.indirectY ll).bytes = [ll] ∧
      let base := pointer ll.toNat
      let r := t.resolve (.indirectY ll)
      r.ea.toNat = (base.toNat + t.y.toNat) % 65536 ∧ r.isAcc = false ∧
        r.additionalCycles = if r.ea.toNat / 256 = base.toNat / 256 then 0 else 1)

/-- 40_addressing_modes R79: the signed offset from PC after the operand, modulo 2^16 (the wrap is the
spec's decision D3). -/
def Obligations.RelativeAddsTheSignedOffset : Prop :=
  ∀ (t : State) (off : Byte),
    (Operand.relative off).bytes = [off] ∧
    (((t.resolve (.relative off)).ea.toNat : Int) = (t.pc.toNat + off.toInt) % 65536) ∧
    (t.resolve (.relative off)).additionalCycles = 0 ∧
    (t.resolve (.relative off)).isAcc = false

/-- The operand value the statements below name (00_scope R11, 40_addressing_modes R69): A in the
Accumulator mode, the byte in memory at EA in every mode but that and Immediate, and in a step with an
Immediate instruction too, whose EA is the address after the opcode's (that the instruction carries
that byte is the model's choice, log 10). -/
def Obligations.OperandIsTheByteAtItsAddress : Prop :=
  (∀ (s : State) (i : Instr), i.operand = .accumulator → valueAt s i = s.a) ∧
  (∀ (s : State) (i : Instr), i.operand ≠ .accumulator → (∀ imm, i.operand ≠ .immediate imm) →
    valueAt s i = Memory.read s.mem (eaAt s i).toNat) ∧
  ∀ (s : State) (imm : Byte), s.fetchInstr.operand = .immediate imm →
    eaAt s s.fetchInstr = s.pc + 1 ∧ s.memRead (eaAt s s.fetchInstr) = imm ∧
      valueAt s s.fetchInstr = imm

/-! ### Loads, stores, transfers -/

/-- 41_load_store_transfer R100, R101, R102. -/
def Obligations.LoadsTakeTheOperandAndSetNZ : Prop :=
  (LoadsInto .lda (fun t v => { t with a := v }) ∧
    Rows .lda (readRows 0xA9 0xA5 0xB5 0xAD 0xBD 0xB9 0xA1 0xB1)) ∧
  (LoadsInto .ldx (fun t v => { t with x := v }) ∧
    Rows .ldx (fun b w => [(.immediate b, 0xA2, 2, false), (.zeroPage b, 0xA6, 3, false),
      (.absolute w, 0xAE, 4, false), (.zeroPageY b, 0xB6, 4, false),
      (.absoluteY w, 0xBE, 4, true)])) ∧
  (LoadsInto .ldy (fun t v => { t with y := v }) ∧
    Rows .ldy (fun b w => [(.immediate b, 0xA0, 2, false), (.zeroPage b, 0xA4, 3, false),
      (.absolute w, 0xAC, 4, false), (.zeroPageX b, 0xB4, 4, false),
      (.absoluteX w, 0xBC, 4, true)]))

/-- 41_load_store_transfer R103, R104, R105: the stored byte, every other byte, every register and
every flag. That STA counts no page-cross cycle is the spec's decision D13. -/
def Obligations.StoresWriteOneByteAndNoFlag : Prop :=
  (StoresFrom .sta State.a ∧
    Rows .sta (fun b w => [(.indirectX b, 0x81, 6, false), (.zeroPage b, 0x85, 3, false),
      (.absolute w, 0x8D, 4, false), (.indirectY b, 0x91, 6, false),
      (.zeroPageX b, 0x95, 4, false), (.absoluteY w, 0x99, 5, false),
      (.absoluteX w, 0x9D, 5, false)])) ∧
  (StoresFrom .stx State.x ∧
    Rows .stx (fun b w => [(.zeroPage b, 0x86, 3, false), (.absolute w, 0x8E, 4, false),
      (.zeroPageY b, 0x96, 4, false)])) ∧
  (StoresFrom .sty State.y ∧
    Rows .sty (fun b w => [(.zeroPage b, 0x84, 3, false), (.absolute w, 0x8C, 4, false),
      (.zeroPageX b, 0x94, 4, false)]))

/-- 41_load_store_transfer R106-R111: five transfers set N and Z; TXS writes SP and no flag. -/
def Obligations.TransfersCopyAndAllButTxsSetNZ : Prop :=
  SetsRegister .tax 0xAA (fun t v => { t with x := v }) State.a ∧
  SetsRegister .txa 0x8A (fun t v => { t with a := v }) State.x ∧
  SetsRegister .tay 0xA8 (fun t v => { t with y := v }) State.a ∧
  SetsRegister .tya 0x98 (fun t v => { t with a := v }) State.y ∧
  SetsRegister .tsx 0xBA (fun t v => { t with x := v }) State.sp ∧
  encode .txs = [0x9A] ∧ ∀ s, exec .txs s = .next { after s .txs 2 with sp := s.x }

/-! ### Arithmetic -/

/-- 42_arithmetic R112: the exact 9-bit sum, its low byte, its bit 8, the sign rule for V. -/
def Obligations.BinaryAddIsTheNineBitSum : Prop :=
  ∀ (a m : Byte) (c : Bool),
    let sum := a.toNat + m.toNat + c.toNat
    let r := addBinary a m c
    r.res.toNat = sum % 256 ∧ r.c = decide (256 ≤ sum) ∧
    r.v = (decide (a.getLsbD 7 = m.getLsbD 7) && decide (r.res.getLsbD 7 ≠ a.getLsbD 7)) ∧
    r.n = r.res.getLsbD 7 ∧ r.z = decide (r.res = 0)

/-- As integers: V is signed overflow, for ADC of `a + m + c` and for SBC, which adds `~m`, of
`a - m - (1 - c)`; SBC's result is that difference modulo 256, its C = 1 exactly when no borrow is
needed (42_arithmetic R112, R114, C7). -/
def Obligations.BinaryArithmeticAgreesWithTheIntegers : Prop :=
  ∀ (a m : Byte) (c : Bool),
    ((addBinary a m c).v = true ↔
      ¬ (-128 ≤ a.toInt + m.toInt + c.toNat ∧ a.toInt + m.toInt + c.toNat ≤ 127)) ∧
    ((addBinary a (~~~m) c).v = true ↔
      ¬ (-128 ≤ a.toInt - m.toInt - (1 - c.toNat) ∧ a.toInt - m.toInt - (1 - c.toNat) ≤ 127)) ∧
    (((addBinary a (~~~m) c).res.toNat : Int) = (a.toNat - m.toNat - (1 - c.toNat)) % 256) ∧
    ((addBinary a (~~~m) c).c = true ↔ m.toNat + (1 - c.toNat) ≤ a.toNat)

/-- 42_arithmetic R113, R115: ADC takes A and the four flags from the binary sum when D = 0 or
DECIMAL_MODE is `binary`, else from the NMOS reference or the free value (log 5), as the mode selects;
nothing else changes. That the mode is a parameter is the spec's decision D8. -/
def Obligations.AdcWritesAAndFourFlags : Prop :=
  Rows .adc (readRows 0x69 0x65 0x75 0x6D 0x7D 0x79 0x61 0x71) ∧
  ∀ s o,
    let m := valueAt s (.adc o)
    let r := if s.flag .decimal = false ∨ s.params.decimalMode = .binary
      then addBinary s.a m (s.flag .carry)
      else if s.params.decimalMode = .nmosBcd then nmosDecimalAdc s.a m (s.flag .carry)
      else Config.decimalAdc s.a m (s.flag .carry)
    ∃ sr, Bits sr (withBit (withBit (withBit (withBit s.flag .carry r.c) .overflow r.v)
        .negative r.n) .zero r.z) ∧
      exec (.adc o) s =
        .next { after s (.adc o) (plainCycles s (.adc o)) with a := r.res, sr := sr }

/-- 42_arithmetic R114, R115: SBC is the same with `~m`, or with the NMOS reference or the free value
(log 5) of `m` (the spec's decisions D21, D8). -/
def Obligations.SbcWritesAAndFourFlags : Prop :=
  Rows .sbc (readRows 0xE9 0xE5 0xF5 0xED 0xFD 0xF9 0xE1 0xF1) ∧
  ∀ s o,
    let m := valueAt s (.sbc o)
    let r := if s.flag .decimal = false ∨ s.params.decimalMode = .binary
      then addBinary s.a (~~~m) (s.flag .carry)
      else if s.params.decimalMode = .nmosBcd then nmosDecimalSbc s.a m (s.flag .carry)
      else Config.decimalSbc s.a m (s.flag .carry)
    ∃ sr, Bits sr (withBit (withBit (withBit (withBit s.flag .carry r.c) .overflow r.v)
        .negative r.n) .zero r.z) ∧
      exec (.sbc o) s =
        .next { after s (.sbc o) (plainCycles s (.sbc o)) with a := r.res, sr := sr }

/-- The `nmos_bcd` reference, for all bytes, valid BCD or not (42_arithmetic R116, R117; general
knowledge of the spec, log 17). ADC: a digit sum above 9 carries and is adjusted by 6; N is bit 3 of
the high digit sum before its adjustment, V the sign rule with N as the result's sign, C the carry out
of the high digit, Z the binary sum's. SBC: a negative digit borrows and is adjusted by 6; its four
flags are the binary subtraction's. -/
def Obligations.NmosDecimalFollowsTheDigitRules : Prop :=
  ∀ (a m : Byte) (c : Bool),
    (let lo := a.toNat % 16 + m.toNat % 16 + c.toNat
     let hi := a.toNat / 16 + m.toNat / 16 + if 9 < lo then 1 else 0
     let r := nmosDecimalAdc a m c
     r.res.toNat =
        ((if 9 < hi then hi + 6 else hi) * 16 + (if 9 < lo then lo + 6 else lo) % 16) % 256 ∧
      r.c = decide (9 < hi) ∧ r.n = decide (hi / 8 % 2 = 1) ∧
      r.v = (decide (a.getLsbD 7 = m.getLsbD 7) && decide (r.n ≠ a.getLsbD 7)) ∧
      r.z = (addBinary a m c).z) ∧
    (let lo : Int := a.toNat % 16 - m.toNat % 16 - (1 - c.toNat)
     let hi : Int := a.toNat / 16 - m.toNat / 16 - if lo < 0 then 1 else 0
     let r := nmosDecimalSbc a m c
     (r.res.toNat : Int) =
        (if hi < 0 then hi - 6 else hi) % 16 * 16 + (if lo < 0 then lo - 6 else lo) % 16 ∧
      r = { addBinary a (~~~m) c with res := r.res }) ∧
    -- on valid BCD these are decimal addition and subtraction
    (IsBcd a → IsBcd m →
      IsBcd (nmosDecimalAdc a m c).res ∧
      bcd (nmosDecimalAdc a m c).res = (bcd a + bcd m + c.toNat) % 100 ∧
      (nmosDecimalAdc a m c).c = decide (100 ≤ bcd a + bcd m + c.toNat) ∧
      IsBcd (nmosDecimalSbc a m c).res ∧
      ((bcd (nmosDecimalSbc a m c).res : Int) = (bcd a - bcd m - (1 - c.toNat)) % 100))

/-! ### Logic, shifts, increments, compares -/

/-- 43_logic R118, R119, R120. -/
def Obligations.LogicCombinesIntoAAndSetsNZ : Prop :=
  (Combines .and (fun a m => a &&& m) ∧
    Rows .and (readRows 0x29 0x25 0x35 0x2D 0x3D 0x39 0x21 0x31)) ∧
  (Combines .ora (fun a m => a ||| m) ∧
    Rows .ora (readRows 0x09 0x05 0x15 0x0D 0x1D 0x19 0x01 0x11)) ∧
  (Combines .eor (fun a m => a ^^^ m) ∧
    Rows .eor (readRows 0x49 0x45 0x55 0x4D 0x5D 0x59 0x41 0x51))

/-- 43_logic R121: Z from A & M, N and V from M; A and everything else is kept. -/
def Obligations.BitTestsWithoutWritingA : Prop :=
  Rows .bit (fun b w => [(.zeroPage b, 0x24, 3, false), (.absolute w, 0x2C, 4, false)]) ∧
  ∀ s o, ∃ sr,
    Bits sr (withBit (withBit (withBit s.flag .zero (decide (s.a &&& valueAt s (.bit o) = 0)))
      .negative ((valueAt s (.bit o)).getLsbD 7)) .overflow ((valueAt s (.bit o)).getLsbD 6)) ∧
    exec (.bit o) s = .next { after s (.bit o) (plainCycles s (.bit o)) with sr := sr }

/-- 44_shift_rotate R122, R123, R124: on A, and on memory in the four memory modes. That AbsoluteX
counts no page-cross cycle is the spec's decision D13. -/
def Obligations.ShiftsMoveTheBitOutIntoCarry : Prop :=
  (let f := fun (_ : State) (v : Byte) => BitVec.ofNat 8 (v.toNat * 2)
   let g := fun (s : State) (v : Byte) => withBit (nz s (f s v)) .carry (v.getLsbD 7)
   ModifiesA .asl f g ∧ ModifiesMemory .asl f g ∧
     Rows .asl (shiftRows 0x0A 0x06 0x16 0x0E 0x1E)) ∧
  (let f := fun (_ : State) (v : Byte) => BitVec.ofNat 8 (v.toNat / 2)
   let g := fun (s : State) (v : Byte) => withBit (nz s (f s v)) .carry (v.getLsbD 0)
   ModifiesA .lsr f g ∧ ModifiesMemory .lsr f g ∧
     Rows .lsr (shiftRows 0x4A 0x46 0x56 0x4E 0x5E))

/-- 44_shift_rotate R122, R125, R126: the incoming C is the bit shifted in. That AbsoluteX counts no
page-cross cycle is the spec's decision D13. -/
def Obligations.RotatesShiftTheOldCarryIn : Prop :=
  (let f := fun (s : State) (v : Byte) => BitVec.ofNat 8 (v.toNat * 2 + (s.flag .carry).toNat)
   let g := fun (s : State) (v : Byte) => withBit (nz s (f s v)) .carry (v.getLsbD 7)
   ModifiesA .rol f g ∧ ModifiesMemory .rol f g ∧
     Rows .rol (shiftRows 0x2A 0x26 0x36 0x2E 0x3E)) ∧
  (let f := fun (s : State) (v : Byte) => BitVec.ofNat 8 (v.toNat / 2 + 128 * (s.flag .carry).toNat)
   let g := fun (s : State) (v : Byte) => withBit (nz s (f s v)) .carry (v.getLsbD 0)
   ModifiesA .ror f g ∧ ModifiesMemory .ror f g ∧
     Rows .ror (shiftRows 0x6A 0x66 0x76 0x6E 0x7E))

/-- 45_inc_dec R127, R128: one byte of memory, N and Z; neither C nor V. That AbsoluteX counts no
page-cross cycle is the spec's decision D13 (44_shift_rotate R122). -/
def Obligations.IncAndDecChangeOneByteAndNZ : Prop :=
  (ModifiesMemory .inc (fun _ v => v + 1) (fun s v => nz s (v + 1)) ∧
    Rows .inc (modifyRows 0xE6 0xF6 0xEE 0xFE)) ∧
  (ModifiesMemory .dec (fun _ v => v - 1) (fun s v => nz s (v - 1)) ∧
    Rows .dec (modifyRows 0xC6 0xD6 0xCE 0xDE))

/-- 45_inc_dec R129-R132. -/
def Obligations.IndexStepsWrapAndSetNZ : Prop :=
  SetsRegister .inx 0xE8 (fun t v => { t with x := v }) (fun s => s.x + 1) ∧
  SetsRegister .iny 0xC8 (fun t v => { t with y := v }) (fun s => s.y + 1) ∧
  SetsRegister .dex 0xCA (fun t v => { t with x := v }) (fun s => s.x - 1) ∧
  SetsRegister .dey 0x88 (fun t v => { t with y := v }) (fun s => s.y - 1)

/-- 46_compare R133-R136: V is kept, no register is written. That D has no effect is the spec's own
reading ("This spec states it because the document gives compares no D-dependent formula"). -/
def Obligations.ComparesSetCarryWhenNotBelow : Prop :=
  (Compares .cmp State.a ∧ Rows .cmp (readRows 0xC9 0xC5 0xD5 0xCD 0xDD 0xD9 0xC1 0xD1)) ∧
  (Compares .cpx State.x ∧ Rows .cpx (indexRows 0xE0 0xE4 0xEC)) ∧
  (Compares .cpy State.y ∧ Rows .cpy (indexRows 0xC0 0xC4 0xCC))

/-! ### Stack -/

/-- 47_stack R137, R139: one byte into the stack page, SP down by one modulo 256, SR kept (for PHP by the
spec's decision D9). -/
def Obligations.PushesStoreThenDecrement : Prop :=
  (encode .pha = [0x48] ∧ ∀ s, Memory.wf s.mem = true →
    ∃ m, Pushed s.mem m s.sp [s.a] ∧
      exec .pha s = .next { after s .pha 3 with mem := m, sp := s.sp - 1 }) ∧
  (encode .php = [0x08] ∧ ∀ s, Memory.wf s.mem = true →
    ∃ m p, Bits p (withBit (withBit s.flag .brk true) .unused true) ∧ Pushed s.mem m s.sp [p] ∧
      exec .php s = .next { after s .php 3 with mem := m, sp := s.sp - 1 })

/-- 47_stack R138, R140: SP up by one modulo 256, then the byte there; PLA sets N and Z, PLP restores
all eight bits verbatim. -/
def Obligations.PullsIncrementThenLoad : Prop :=
  (encode .pla = [0x68] ∧ ∀ s,
    let v := Memory.read s.mem (slot (s.sp + 1)).toNat
    ∃ sr, Bits sr (nz s v) ∧
      exec .pla s = .next { after s .pla 4 with a := v, sp := s.sp + 1, sr := sr }) ∧
  (encode .plp = [0x28] ∧ ∀ s,
    exec .plp s =
      .next { after s .plp 4 with sr := Memory.read s.mem (slot (s.sp + 1)).toNat, sp := s.sp + 1 })

/-- 20_memory R43: (a) a push writes one byte of page 1 and nothing else, wrapping inside it, (b) the pop
after it returns that byte and restores SP, and (c) after 256 pushes the next one overwrites the first
one's byte. -/
def Obligations.PopAfterPushReturnsTheByte : Prop :=
  ∀ (s : State) (v : Byte), Memory.wf s.mem = true →
    (s.push v).popped = v ∧ (s.push v).afterPop.sp = s.sp ∧
    Pushed s.mem (s.push v).mem s.sp [v] ∧
    256 ≤ (slot s.sp).toNat ∧ (slot s.sp).toNat ≤ 511 ∧
    (s.sp = 0 → (s.push v).sp = 0xFF ∧ (s.push v).memRead 0x0100 = v) ∧
    (s.sp = 0xFF → s.afterPop.sp = 0 ∧ s.popped = s.memRead 0x0100) ∧
    ∀ vs : List Byte, vs.length = 256 →
      (vs.foldl State.push s).sp = s.sp ∧ ((vs.foldl State.push s).push v).memRead (slot s.sp) = v

/-! ### Control flow -/

/-- 48_control_flow R141: PC takes the EA; nothing else changes. -/
def Obligations.JmpGoesToItsEffectiveAddress : Prop :=
  Rows .jmp (fun _ w => [(.absolute w, 0x4C, 3, false), (.indirect w, 0x6C, 5, false)]) ∧
  ∀ s o, exec (.jmp o) s = .next { s with
    pc := eaAt s (.jmp o), cyc := s.cyc + baseCycles (.jmp o) }

/-- 48_control_flow R142: pushes PC + 2, the address of JSR's last byte, high byte first, and goes to
the target as it was read, whatever the pushes overwrite (the order is the spec's decision D18). -/
def Obligations.JsrPushesItsLastByteAndJumps : Prop :=
  ∀ s (target : Word), encode (.jsr target) = [0x20, loByte target, hiByte target] ∧
    (Memory.wf s.mem = true →
      ∃ m, Pushed s.mem m s.sp [hiByte (s.pc + 2), loByte (s.pc + 2)] ∧
        exec (.jsr target) s =
          .next { s with pc := target, cyc := s.cyc + 6, mem := m, sp := s.sp - 2 })

/-- 48_control_flow R143: pops low then high, and adds 1 modulo 2^16. -/
def Obligations.RtsPopsAndAddsOne : Prop :=
  encode .rts = [0x60] ∧
  ∀ s, exec .rts s = .next { s with
    pc := concat16 (Memory.read s.mem (slot (s.sp + 2)).toNat)
      (Memory.read s.mem (slot (s.sp + 1)).toNat) + 1
    cyc := s.cyc + 6, sp := s.sp + 2 }

/-- RTS after JSR resumes at the instruction after the JSR with SP as it was, for every SP
(48_control_flow R142, R143; the worked example W3 as corrected by C1). -/
def Obligations.RtsAfterJsrResumesAfterTheCall : Prop :=
  ∀ (s t : State) (target : Word), Memory.wf s.mem = true → exec (.jsr target) s = .next t →
    exec .rts t = .next { t with pc := s.pc + 3, cyc := t.cyc + 6, sp := s.sp }

/-- 48_control_flow R144-R152: the eight branches, each with its bit and value. -/
def Obligations.BranchesTestOneBit : Prop :=
  Branches .bcc 0x90 (fun s => !s.flag .carry) ∧ Branches .bcs 0xB0 (fun s => s.flag .carry) ∧
  Branches .beq 0xF0 (fun s => s.flag .zero) ∧ Branches .bne 0xD0 (fun s => !s.flag .zero) ∧
  Branches .bmi 0x30 (fun s => s.flag .negative) ∧
  Branches .bpl 0x10 (fun s => !s.flag .negative) ∧
  Branches .bvc 0x50 (fun s => !s.flag .overflow) ∧ Branches .bvs 0x70 (fun s => s.flag .overflow)

/-! ### Flags, BRK, RTI, NOP, INVALID -/

/-- 49_flags_system R153-R159, and R162: NOP writes PC, by 1, and CYC, by 2, only. -/
def Obligations.FlagInstructionsWriteOneBitAndNopNone : Prop :=
  SetsFlag .clc 0x18 .carry false ∧ SetsFlag .sec 0x38 .carry true ∧
  SetsFlag .cli 0x58 .interruptDisable false ∧ SetsFlag .sei 0x78 .interruptDisable true ∧
  SetsFlag .cld 0xD8 .decimal false ∧ SetsFlag .sed 0xF8 .decimal true ∧
  SetsFlag .clv 0xB8 .overflow false ∧
  encode .nop = [0xEA] ∧ ∀ s, exec .nop s = .next { s with pc := s.pc + 1, cyc := s.cyc + 2 }

/-- 49_flags_system R160: BRK enters through the IRQ/BRK vector, whatever I holds, with PC + 2 and the
status with Break and Unused set pushed; stored B and D are kept (the spec's decisions D9, D16). -/
def Obligations.BrkEntersThroughTheIrqVector : Prop :=
  encode .brk = [0x00] ∧
  ∀ s, Memory.wf s.mem = true →
    ∃ t p, exec .brk s = .next t ∧ Bits p (withBit (withBit s.flag .brk true) .unused true) ∧
      Entered { s with cyc := s.cyc + 7 } t 0xFFFE (s.pc + 2) p

/-- 49_flags_system R161: SR verbatim (the spec's decision D10), then PC low and high, with no
increment. -/
def Obligations.RtiRestoresStatusAndPc : Prop :=
  encode .rti = [0x40] ∧
  ∀ s, exec .rti s = .next { s with
    sr := Memory.read s.mem (slot (s.sp + 1)).toNat
    pc := concat16 (Memory.read s.mem (slot (s.sp + 3)).toNat)
      (Memory.read s.mem (slot (s.sp + 2)).toNat)
    cyc := s.cyc + 6, sp := s.sp + 3 }

/-- 49_flags_system R163: PC advances by one, the record has one more entry, nothing else changes; in
a step, this happens for each of the 105 bytes at PC. That the step answers a next state is the model's
reading (log 7); which policy lets it run is the spec's decision D11. -/
def Obligations.InvalidOpcodeIsRecordedAndNothingElse : Prop :=
  (∀ s op, exec (.invalid op) s =
    .next { s with pc := s.pc + 1, faults := s.faults ++ [⟨op, s.pc⟩] }) ∧
  ∀ s, Enabled s → s.script = [] → invalidOpcodes.contains (s.memRead s.pc) = true →
    step s = .next { s with
      pc := s.pc + 1, faults := s.faults ++ [⟨s.memRead s.pc, s.pc⟩] }

/-! ### Interrupts and reset -/

/-- 60_exceptions R206: no effect with I = 1; with I = 0 the entry through the IRQ/BRK vector, PC and
the status with Break 0 and Unused 1 pushed, no cycles (the spec's decisions D14, D12). -/
def Obligations.IrqIsGatedByInterruptDisable : Prop :=
  ∀ s : State, (s.flag .interruptDisable = true → s.irq = s) ∧
    (s.flag .interruptDisable = false → Memory.wf s.mem = true →
      ∃ p, Bits p (withBit (withBit s.flag .brk false) .unused true) ∧
        Entered s s.irq 0xFFFE s.pc p)

/-- 60_exceptions R207: the same entry through the NMI vector, whatever I holds; that it sets I the spec
derives from R204. -/
def Obligations.NmiIsNeverGated : Prop :=
  ∀ s : State, Memory.wf s.mem = true →
    ∃ p, Bits p (withBit (withBit s.flag .brk false) .unused true) ∧
      Entered s s.nmi 0xFFFA s.pc p

/-- An `irq()` right after an `nmi()` is dropped; an `nmi()` right after a serviced `irq()` is
serviced, and its handler runs first (60_exceptions R209). -/
def Obligations.CallOrderDecidesInterruptOrder : Prop :=
  ∀ s : State, s.nmi.irq = s.nmi ∧
    (s.flag .interruptDisable = false → Memory.wf s.mem = true →
      s.irq.nmi.pc = s.read16 0xFFFA ∧ (exec .rti s.irq.nmi =
        .next { s.irq.nmi with
          pc := s.irq.pc, cyc := s.cyc + 6, sp := s.irq.sp, sr := pushedStatus s.irq.sr false }))

/-- RTI right after an entry by `irq()` or `nmi()` resumes at the interrupted PC with SP and every
flag but B and U as before; those two are 0 and 1, as pushed; only the three stack bytes differ
(60_exceptions R205, R210, D10). -/
def Obligations.RtiResumesWhatTheInterruptStopped : Prop :=
  ∀ s t : State, Memory.wf s.mem = true →
    (t = s.nmi ∨ (t = s.irq ∧ s.flag .interruptDisable = false)) →
    ∃ m sr, Bits sr (withBit (withBit s.flag .brk false) .unused true) ∧
      (∀ a : Word, a ≠ slot s.sp → a ≠ slot (s.sp - 1) → a ≠ slot (s.sp - 2) →
        Memory.read m a.toNat = Memory.read s.mem a.toNat) ∧
      exec .rti t = .next { s with sr := sr, mem := m, cyc := s.cyc + 6 }

/-- RTI right after BRK resumes at BRK's address + 2, skipping the padding byte
(30_encoding R58, 49_flags_system R160, R161). -/
def Obligations.RtiAfterBrkSkipsThePaddingByte : Prop :=
  ∀ s t : State, Memory.wf s.mem = true → exec .brk s = .next t →
    exec .rti t = .next { t with
      pc := s.pc + 2, sp := s.sp, sr := s.sr ||| 0x30, cyc := t.cyc + 6 }

/-- 70_reset R230, R231: PC from the RESET vector, SP = RESET_SP, I = 0, `resetDone`; A, X, Y, the
other flags, memory, CYC and the fault record are unchanged (the spec's decisions D5, D7, D19). -/
def Obligations.ResetWritesPcSpAndIOnly : Prop :=
  ∀ s : State, ∃ sr, Bits sr (withBit s.flag .interruptDisable false) ∧
    s.resetCall = { s with
      pc := concat16 (s.memRead 0xFFFD) (s.memRead 0xFFFC)
      sp := s.params.resetSp, sr := sr, resetDone := true }

/-- `State.reset` is what `reset()` makes of the machine at creation; PC 0x0000, I = 0 and the empty
memory are the spec's, the other register values the model's (log 2, 3, 4, 15; 70_reset R230, R232). -/
def Obligations.StateResetIsResetAtCreation : Prop :=
  State.creation.resetCall = State.reset ∧ State.reset.pc = 0 ∧
    State.reset.flag .interruptDisable = false ∧ State.reset.mem = []

/-! ### The step -/

/-- 30_encoding R55, 70_reset R233: when the bytes at PC decode to `i`, the step is `exec i`; with the
host's own `fetch_execute_next()` first in the script, it is `exec i` with that call taken off. -/
def Obligations.StepRunsTheDecodedInstruction : Prop :=
  ∀ (s : State) (i : Instr) (rest : List Byte), Enabled s →
    decode [s.memRead s.pc, s.memRead (s.pc + 1), s.memRead (s.pc + 2)] = .ok (i, rest) →
    i.wf = true ∧
    (s.script = [] → step s = exec i s) ∧
    ∀ calls, s.script = .fetchExecute :: calls → step s = exec i { s with script := calls }

/-- The host's calls happen one a step in the script's order (60_exceptions R209, R215; the spec's
decisions D15, D23; that State holds them is the model's choice, log 8). A memory write and `reset()`
need no earlier reset: the loader writes before it (70_reset R233). That the calls are made after a
recorded fault under `fatal` too is the model's choice, log 24. -/
def Obligations.HostCallsHappenInOrder : Prop :=
  ∀ (s : State) (calls : List HostAction) (addr : Word) (v : Byte),
    let at' := fun (c : HostAction) => step { s with script := c :: calls }
    let s' : State := { s with script := calls }
    at' (.memWrite addr v) = .next (s'.memWrite addr v) ∧ at' .reset = .next s'.resetCall ∧
      (s.resetDone = true → at' .irq = .next s'.irq ∧ at' .nmi = .next s'.nmi)

/-- Before the first `reset()` a step is refused, and `irq()` and `nmi()` have no move; `reset()` does
(30_encoding R55, the spec's decision D20; 70_reset R232, D22). That the first refusal ends the run is
log 22, a DESIGN CHOICE; the name of the second is log 9, DEDUCED. -/
def Obligations.NothingRunsBeforeReset : Prop :=
  ∀ (s : State) (calls : List HostAction), s.resetDone = false →
    step { s with script := [] } = .refused .notReset ∧
    step { s with script := .fetchExecute :: calls } = .refused .notReset ∧
    step { s with script := .irq :: calls } = .refused .interruptBeforeReset ∧
    step { s with script := .nmi :: calls } = .refused .interruptBeforeReset ∧
    step { s with script := .reset :: calls } =
      .next { s with script := calls }.resetCall

/-- Under `fatal` no step follows a recorded fault; under `skip` the core goes on
(60_exceptions R201, the spec's decision D11; that the stop is a fault of the following step is log 7).
That it is the stop of `fetch_execute_next()` alone, here with no host call waiting, is log 24. -/
def Obligations.FatalPolicyStopsAfterAFault : Prop :=
  ∀ (s : State) (f : InvalidOpcode) (fs : List InvalidOpcode), s.resetDone = true →
    s.faults = f :: fs → s.script = [] →
    (s.params.onInvalid = .fatal → step s = .fault (.invalidOpcode f.op f.addr)) ∧
    (s.params.onInvalid = .skip → ∃ t, step s = .next t)

/-- Every instruction has a next state in every state, and so has every step of a core that has been
reset and is not stopped by a recorded fault (70_reset R239, which the spec derives). -/
def Obligations.EveryInstructionCompletes : Prop :=
  (∀ (i : Instr) (s : State), ∃ t, exec i s = .next t) ∧
  ∀ s : State, Enabled s → ∃ t, step s = .next t

/-! ### Whole-machine rules -/

/-- The invariant of `State.Inv` is kept by every step, whatever the host does (the canonical memory is
the model's choice, log 14). -/
def Obligations.StepKeepsTheInvariant : Prop :=
  ∀ s t : State, s.Inv → step s = .next t → t.Inv

/-- The invariant holds at reset. -/
def Obligations.ResetMeetsTheInvariant : Prop := State.reset.Inv

/-- 70_reset R237: two states that differ only in CYC take the same step and differ then only in CYC,
by as much. -/
def Obligations.TimingIsNotBehaviour : Prop :=
  ∀ (s : State) (d : Nat),
    step { s with cyc := s.cyc + d } =
      match step s with
      | .next t => .next { t with cyc := t.cyc + d }
      | .fault f => .fault f
      | .refused r => .refused r

/-- 70_reset R235: a completed instruction's count is at least 2 and at most 7; INVALID has none (base
counts are the spec's general knowledge, log 17; the page-cross mask its decision D13). -/
def Obligations.CycleCountsAreTwoToSeven : Prop :=
  ∀ (i : Instr) (s : State), i.wf = true →
    ∃ t, exec i s = .next t ∧
      ((∃ op, i = .invalid op) → t.cyc = s.cyc) ∧
      ((∀ op, i ≠ .invalid op) → s.cyc + 2 ≤ t.cyc ∧ t.cyc ≤ s.cyc + 7)

/-- No instruction writes a bit of SR that 10_state R19-R26 does not say it writes; N and Z apart,
which most instructions write. -/
def Obligations.OnlyTheNamedInstructionsWriteAFlag : Prop :=
  ∀ (i : Instr) (s t : State) (f : StatusFlag), f ≠ .negative → f ≠ .zero → writesFlag f i = false →
    exec i s = .next t → t.flag f = s.flag f

/-- No instruction writes A, X, Y or SP that 10_state R14-R17 does not say writes it. -/
def Obligations.OnlyTheNamedInstructionsWriteARegister : Prop :=
  ∀ (i : Instr) (s t : State), i.wf = true → exec i s = .next t →
    (writesA i = false → t.a = s.a) ∧ (writesX i = false → t.x = s.x) ∧
    (writesY i = false → t.y = s.y) ∧ (writesSp i = false → t.sp = s.sp)

/-- An instruction that 20_memory R44 gives no write leaves every byte of memory as it was; no
instruction touches `resetDone`, the parameters or the host's calls, and only INVALID the fault
record. -/
def Obligations.OnlyStoringInstructionsWriteMemory : Prop :=
  ∀ (i : Instr) (s t : State), i.wf = true → exec i s = .next t →
    (stores i = false → ∀ a : Word, t.memRead a = s.memRead a) ∧
    t.resetDone = s.resetDone ∧ t.params = s.params ∧ t.script = s.script ∧
    ((∀ op, i ≠ .invalid op) → t.faults = s.faults)

/-- PHA, PHP, JSR and BRK, and the entries of `irq()` and `nmi()`, write no byte outside
0x0100 to 0x01FF (20_memory R43(a)). -/
def Obligations.StackWritesStayInPageOne : Prop :=
  ∀ (s t : State) (target a : Word), Memory.wf s.mem = true →
    (exec .pha s = .next t ∨ exec .php s = .next t ∨ exec (.jsr target) s = .next t ∨
      exec .brk s = .next t ∨ t = s.irq ∨ t = s.nmi) →
    a.toNat < 256 ∨ 512 ≤ a.toNat → t.memRead a = s.memRead a

/-- 60_exceptions R201: no step removes an entry of the fault record, and none clears `resetDone` or
changes a parameter. -/
def Obligations.FaultRecordOnlyGrows : Prop :=
  ∀ s t : State, step s = .next t →
    s.faults <+: t.faults ∧ (s.resetDone = true → t.resetDone = true) ∧ t.params = s.params

/-- 70_reset R240, 60_exceptions R201: a run ends only in a state with PC = STOP_PC and an empty fault
record, and a run with a fault recorded has no successful end. -/
def Obligations.RunsEndOnlyAtStopPcWithoutFault : Prop :=
  ∀ (stopPc : Word) (fuel : Nat) (s t : State), runTo stopPc fuel s = .ended t →
    t.pc = stopPc ∧ t.faults = [] ∧ s.faults = []

end
end

