-- ==== Sys2Proof/Laws/Decode.lean ====
section
/-! SUPPORT. Small facts of the decoder and the encoder (30_encoding R51, R57). -/

namespace Sys2Proof

theorem Entry.operandCount_le (e : Entry) : e.operandCount ≤ 2 := by
  cases e <;> simp [Entry.operandCount]

theorem Operand.bytes_length_le (o : Operand) : o.bytes.length ≤ 2 := by
  cases o <;> simp [Operand.bytes]

/-- An instruction is 1 to 3 bytes long (30_encoding R51). -/
theorem Instr.length_bounds (i : Instr) : 1 ≤ i.length ∧ i.length ≤ 3 := by
  have := i.operand.bytes_length_le
  unfold Instr.length
  omega

/-- Three bytes always hold an instruction: the decoder refuses none of them. -/
theorem decode_three (op b1 b2 : Byte) :
    decode [op, b1, b2] = .ok (instrOf op b1 b2, [b1, b2].drop (entryOf op).operandCount) := by
  have h : ¬ [b1, b2].length < (entryOf op).operandCount := by
    have := (entryOf op).operandCount_le
    simp only [List.length_cons, List.length_nil]
    omega
  simp only [decode, h, if_false]
  rfl

/-- The decoder reads no more bytes than the entry asks for. -/
theorem decode_rest_length {bs rest : List Byte} {i : Instr} (h : decode bs = .ok (i, rest)) :
    rest.length ≤ bs.length := by
  cases bs with
  | nil => cases h
  | cons op bs =>
    simp only [decode] at h
    split at h
    · cases h
    · cases h
      simp only [List.length_drop, List.length_cons]
      omega

/-- The opcode-table word of a row always decodes. -/
theorem decodeTableWord_eq (nbits w : Nat) :
    ∃ op b1 b2, decodeTableWord nbits w = some (instrOf op b1 b2) :=
  ⟨_, _, _, by rw [decodeTableWord, tableWordBytes, decode_three]⟩

/-- The encoder's bytes where the table has a row for the instruction. -/
theorem encode_of_opcode {i : Instr} {op : Byte} (h : i.opcode? = some op) :
    encode i = op :: i.operand.bytes := by
  simp only [encode, h]

theorem encode_length_of_opcode {i : Instr} (h : i.opcode?.isSome = true) :
    (encode i).length = i.length := by
  obtain ⟨op, hop⟩ := Option.isSome_iff_exists.1 h
  rw [encode_of_opcode hop, List.length_cons, Instr.length, Nat.add_comm]

end Sys2Proof
end

