-- ==== Sys2Proof/Laws/State.lean ====
section
/-! SUPPORT. One lemma per field per setter of Machine/Registers.lean, each true by rfl, so that no
proof unfolds a record update. -/

namespace Sys2Proof.Machine

section
variable (s : State) (v : Word)

@[simp] theorem State.setPc_pc : (s.setPc v).pc = v := rfl
@[simp] theorem State.setPc_a : (s.setPc v).a = s.a := rfl
@[simp] theorem State.setPc_x : (s.setPc v).x = s.x := rfl
@[simp] theorem State.setPc_y : (s.setPc v).y = s.y := rfl
@[simp] theorem State.setPc_sp : (s.setPc v).sp = s.sp := rfl
@[simp] theorem State.setPc_sr : (s.setPc v).sr = s.sr := rfl
@[simp] theorem State.setPc_mem : (s.setPc v).mem = s.mem := rfl
@[simp] theorem State.setPc_resetDone : (s.setPc v).resetDone = s.resetDone := rfl
@[simp] theorem State.setPc_cyc : (s.setPc v).cyc = s.cyc := rfl
@[simp] theorem State.setPc_faults : (s.setPc v).faults = s.faults := rfl
@[simp] theorem State.setPc_params : (s.setPc v).params = s.params := rfl
@[simp] theorem State.setPc_script : (s.setPc v).script = s.script := rfl
end

section
variable (s : State) (v : Byte)

@[simp] theorem State.setA_pc : (s.setA v).pc = s.pc := rfl
@[simp] theorem State.setA_a : (s.setA v).a = v := rfl
@[simp] theorem State.setA_x : (s.setA v).x = s.x := rfl
@[simp] theorem State.setA_y : (s.setA v).y = s.y := rfl
@[simp] theorem State.setA_sp : (s.setA v).sp = s.sp := rfl
@[simp] theorem State.setA_sr : (s.setA v).sr = s.sr := rfl
@[simp] theorem State.setA_mem : (s.setA v).mem = s.mem := rfl
@[simp] theorem State.setA_resetDone : (s.setA v).resetDone = s.resetDone := rfl
@[simp] theorem State.setA_cyc : (s.setA v).cyc = s.cyc := rfl
@[simp] theorem State.setA_faults : (s.setA v).faults = s.faults := rfl
@[simp] theorem State.setA_params : (s.setA v).params = s.params := rfl
@[simp] theorem State.setA_script : (s.setA v).script = s.script := rfl
end

section
variable (s : State) (v : Byte)

@[simp] theorem State.setX_pc : (s.setX v).pc = s.pc := rfl
@[simp] theorem State.setX_a : (s.setX v).a = s.a := rfl
@[simp] theorem State.setX_x : (s.setX v).x = v := rfl
@[simp] theorem State.setX_y : (s.setX v).y = s.y := rfl
@[simp] theorem State.setX_sp : (s.setX v).sp = s.sp := rfl
@[simp] theorem State.setX_sr : (s.setX v).sr = s.sr := rfl
@[simp] theorem State.setX_mem : (s.setX v).mem = s.mem := rfl
@[simp] theorem State.setX_resetDone : (s.setX v).resetDone = s.resetDone := rfl
@[simp] theorem State.setX_cyc : (s.setX v).cyc = s.cyc := rfl
@[simp] theorem State.setX_faults : (s.setX v).faults = s.faults := rfl
@[simp] theorem State.setX_params : (s.setX v).params = s.params := rfl
@[simp] theorem State.setX_script : (s.setX v).script = s.script := rfl
end

section
variable (s : State) (v : Byte)

@[simp] theorem State.setY_pc : (s.setY v).pc = s.pc := rfl
@[simp] theorem State.setY_a : (s.setY v).a = s.a := rfl
@[simp] theorem State.setY_x : (s.setY v).x = s.x := rfl
@[simp] theorem State.setY_y : (s.setY v).y = v := rfl
@[simp] theorem State.setY_sp : (s.setY v).sp = s.sp := rfl
@[simp] theorem State.setY_sr : (s.setY v).sr = s.sr := rfl
@[simp] theorem State.setY_mem : (s.setY v).mem = s.mem := rfl
@[simp] theorem State.setY_resetDone : (s.setY v).resetDone = s.resetDone := rfl
@[simp] theorem State.setY_cyc : (s.setY v).cyc = s.cyc := rfl
@[simp] theorem State.setY_faults : (s.setY v).faults = s.faults := rfl
@[simp] theorem State.setY_params : (s.setY v).params = s.params := rfl
@[simp] theorem State.setY_script : (s.setY v).script = s.script := rfl
end

section
variable (s : State) (v : Byte)

@[simp] theorem State.setSp_pc : (s.setSp v).pc = s.pc := rfl
@[simp] theorem State.setSp_a : (s.setSp v).a = s.a := rfl
@[simp] theorem State.setSp_x : (s.setSp v).x = s.x := rfl
@[simp] theorem State.setSp_y : (s.setSp v).y = s.y := rfl
@[simp] theorem State.setSp_sp : (s.setSp v).sp = v := rfl
@[simp] theorem State.setSp_sr : (s.setSp v).sr = s.sr := rfl
@[simp] theorem State.setSp_mem : (s.setSp v).mem = s.mem := rfl
@[simp] theorem State.setSp_resetDone : (s.setSp v).resetDone = s.resetDone := rfl
@[simp] theorem State.setSp_cyc : (s.setSp v).cyc = s.cyc := rfl
@[simp] theorem State.setSp_faults : (s.setSp v).faults = s.faults := rfl
@[simp] theorem State.setSp_params : (s.setSp v).params = s.params := rfl
@[simp] theorem State.setSp_script : (s.setSp v).script = s.script := rfl
end

section
variable (s : State) (v : Byte)

@[simp] theorem State.setSr_pc : (s.setSr v).pc = s.pc := rfl
@[simp] theorem State.setSr_a : (s.setSr v).a = s.a := rfl
@[simp] theorem State.setSr_x : (s.setSr v).x = s.x := rfl
@[simp] theorem State.setSr_y : (s.setSr v).y = s.y := rfl
@[simp] theorem State.setSr_sp : (s.setSr v).sp = s.sp := rfl
@[simp] theorem State.setSr_sr : (s.setSr v).sr = v := rfl
@[simp] theorem State.setSr_mem : (s.setSr v).mem = s.mem := rfl
@[simp] theorem State.setSr_resetDone : (s.setSr v).resetDone = s.resetDone := rfl
@[simp] theorem State.setSr_cyc : (s.setSr v).cyc = s.cyc := rfl
@[simp] theorem State.setSr_faults : (s.setSr v).faults = s.faults := rfl
@[simp] theorem State.setSr_params : (s.setSr v).params = s.params := rfl
@[simp] theorem State.setSr_script : (s.setSr v).script = s.script := rfl
end

section
variable (s : State) (v : Memory)

@[simp] theorem State.setMem_pc : (s.setMem v).pc = s.pc := rfl
@[simp] theorem State.setMem_a : (s.setMem v).a = s.a := rfl
@[simp] theorem State.setMem_x : (s.setMem v).x = s.x := rfl
@[simp] theorem State.setMem_y : (s.setMem v).y = s.y := rfl
@[simp] theorem State.setMem_sp : (s.setMem v).sp = s.sp := rfl
@[simp] theorem State.setMem_sr : (s.setMem v).sr = s.sr := rfl
@[simp] theorem State.setMem_mem : (s.setMem v).mem = v := rfl
@[simp] theorem State.setMem_resetDone : (s.setMem v).resetDone = s.resetDone := rfl
@[simp] theorem State.setMem_cyc : (s.setMem v).cyc = s.cyc := rfl
@[simp] theorem State.setMem_faults : (s.setMem v).faults = s.faults := rfl
@[simp] theorem State.setMem_params : (s.setMem v).params = s.params := rfl
@[simp] theorem State.setMem_script : (s.setMem v).script = s.script := rfl
end

section
variable (s : State) (v : Bool)

@[simp] theorem State.setResetDone_pc : (s.setResetDone v).pc = s.pc := rfl
@[simp] theorem State.setResetDone_a : (s.setResetDone v).a = s.a := rfl
@[simp] theorem State.setResetDone_x : (s.setResetDone v).x = s.x := rfl
@[simp] theorem State.setResetDone_y : (s.setResetDone v).y = s.y := rfl
@[simp] theorem State.setResetDone_sp : (s.setResetDone v).sp = s.sp := rfl
@[simp] theorem State.setResetDone_sr : (s.setResetDone v).sr = s.sr := rfl
@[simp] theorem State.setResetDone_mem : (s.setResetDone v).mem = s.mem := rfl
@[simp] theorem State.setResetDone_resetDone : (s.setResetDone v).resetDone = v := rfl
@[simp] theorem State.setResetDone_cyc : (s.setResetDone v).cyc = s.cyc := rfl
@[simp] theorem State.setResetDone_faults : (s.setResetDone v).faults = s.faults := rfl
@[simp] theorem State.setResetDone_params : (s.setResetDone v).params = s.params := rfl
@[simp] theorem State.setResetDone_script : (s.setResetDone v).script = s.script := rfl
end

section
variable (s : State) (v : Nat)

@[simp] theorem State.setCyc_pc : (s.setCyc v).pc = s.pc := rfl
@[simp] theorem State.setCyc_a : (s.setCyc v).a = s.a := rfl
@[simp] theorem State.setCyc_x : (s.setCyc v).x = s.x := rfl
@[simp] theorem State.setCyc_y : (s.setCyc v).y = s.y := rfl
@[simp] theorem State.setCyc_sp : (s.setCyc v).sp = s.sp := rfl
@[simp] theorem State.setCyc_sr : (s.setCyc v).sr = s.sr := rfl
@[simp] theorem State.setCyc_mem : (s.setCyc v).mem = s.mem := rfl
@[simp] theorem State.setCyc_resetDone : (s.setCyc v).resetDone = s.resetDone := rfl
@[simp] theorem State.setCyc_cyc : (s.setCyc v).cyc = v := rfl
@[simp] theorem State.setCyc_faults : (s.setCyc v).faults = s.faults := rfl
@[simp] theorem State.setCyc_params : (s.setCyc v).params = s.params := rfl
@[simp] theorem State.setCyc_script : (s.setCyc v).script = s.script := rfl
end

section
variable (s : State) (v : List InvalidOpcode)

@[simp] theorem State.setFaults_pc : (s.setFaults v).pc = s.pc := rfl
@[simp] theorem State.setFaults_a : (s.setFaults v).a = s.a := rfl
@[simp] theorem State.setFaults_x : (s.setFaults v).x = s.x := rfl
@[simp] theorem State.setFaults_y : (s.setFaults v).y = s.y := rfl
@[simp] theorem State.setFaults_sp : (s.setFaults v).sp = s.sp := rfl
@[simp] theorem State.setFaults_sr : (s.setFaults v).sr = s.sr := rfl
@[simp] theorem State.setFaults_mem : (s.setFaults v).mem = s.mem := rfl
@[simp] theorem State.setFaults_resetDone : (s.setFaults v).resetDone = s.resetDone := rfl
@[simp] theorem State.setFaults_cyc : (s.setFaults v).cyc = s.cyc := rfl
@[simp] theorem State.setFaults_faults : (s.setFaults v).faults = v := rfl
@[simp] theorem State.setFaults_params : (s.setFaults v).params = s.params := rfl
@[simp] theorem State.setFaults_script : (s.setFaults v).script = s.script := rfl
end

section
variable (s : State) (v : List HostAction)

@[simp] theorem State.setScript_pc : (s.setScript v).pc = s.pc := rfl
@[simp] theorem State.setScript_a : (s.setScript v).a = s.a := rfl
@[simp] theorem State.setScript_x : (s.setScript v).x = s.x := rfl
@[simp] theorem State.setScript_y : (s.setScript v).y = s.y := rfl
@[simp] theorem State.setScript_sp : (s.setScript v).sp = s.sp := rfl
@[simp] theorem State.setScript_sr : (s.setScript v).sr = s.sr := rfl
@[simp] theorem State.setScript_mem : (s.setScript v).mem = s.mem := rfl
@[simp] theorem State.setScript_resetDone : (s.setScript v).resetDone = s.resetDone := rfl
@[simp] theorem State.setScript_cyc : (s.setScript v).cyc = s.cyc := rfl
@[simp] theorem State.setScript_faults : (s.setScript v).faults = s.faults := rfl
@[simp] theorem State.setScript_params : (s.setScript v).params = s.params := rfl
@[simp] theorem State.setScript_script : (s.setScript v).script = v := rfl
end

end Sys2Proof.Machine
end

