-- ==== Sys2Proof/Laws/Flags.lean ====
section
/-! SUPPORT. What reading a bit of SR gives after each flag computation, and what a flag computation
leaves alone. -/

namespace Sys2Proof.Machine

theorem StatusFlag.bit_lt (f : StatusFlag) : f.bit < 8 := by cases f <;> decide

theorem StatusFlag.bit_inj {f g : StatusFlag} : f.bit = g.bit ↔ f = g := by
  cases f <;> cases g <;> decide

/-- Setting a bit is seen at that bit and nowhere else. -/
theorem getLsbD_setBit (v : Byte) (i j : Nat) (b : Bool) (hj : j < 8) :
    (setBit v i b).getLsbD j = if j = i then b else v.getLsbD j := by
  have one : (1#8 <<< i).getLsbD j = decide (j = i) := by
    simp only [BitVec.getLsbD_shiftLeft, hj, decide_true, Bool.true_and, BitVec.getLsbD_one]
    by_cases h : j < i
    · simp [h, show j ≠ i by omega]
    · by_cases h' : j = i
      · simp [h']
      · simp [h, h', show j - i ≠ 0 by omega]
  cases b
  · simp only [setBit, Bool.false_eq_true, if_false, BitVec.getLsbD_and, BitVec.getLsbD_not, one, hj]
    by_cases h : j = i <;> simp [h]
  · simp only [setBit, if_true, BitVec.getLsbD_or, one]
    by_cases h : j = i <;> simp [h]

/-- Two status bytes with the same eight flags are equal. -/
theorem status_ext {v w : Byte} (h : ∀ f : StatusFlag, v.getLsbD f.bit = w.getLsbD f.bit) : v = w := by
  apply BitVec.eq_of_getLsbD_eq
  intro i hi
  have : ∃ f : StatusFlag, f.bit = i := by
    have : i = 0 ∨ i = 1 ∨ i = 2 ∨ i = 3 ∨ i = 4 ∨ i = 5 ∨ i = 6 ∨ i = 7 := by omega
    rcases this with rfl | rfl | rfl | rfl | rfl | rfl | rfl | rfl
    exacts [⟨.carry, rfl⟩, ⟨.zero, rfl⟩, ⟨.interruptDisable, rfl⟩, ⟨.decimal, rfl⟩, ⟨.brk, rfl⟩,
      ⟨.unused, rfl⟩, ⟨.overflow, rfl⟩, ⟨.negative, rfl⟩]
  obtain ⟨f, rfl⟩ := this
  exact h f

theorem State.flag_setFlag (s : State) (f g : StatusFlag) (b : Bool) :
    (s.setFlag f b).flag g = if g = f then b else s.flag g := by
  simp only [State.flag, State.setFlag, State.setSr_sr, getLsbD_setBit _ _ _ _ g.bit_lt,
    StatusFlag.bit_inj]

/-- Setting a flag changes SR and nothing else. -/
theorem State.setFlag_frame (s : State) (f : StatusFlag) (b : Bool) :
    s.setFlag f b = s.setSr (s.setFlag f b).sr := rfl

/-- SetNZ changes SR and nothing else. -/
theorem State.setNZ_frame (s : State) (v : Byte) : s.setNZ v = s.setSr (s.setNZ v).sr := rfl

/-- SetNZ: N is bit 7, Z the zero check, the other six flags are kept (00_scope R9). -/
theorem State.flag_setNZ (s : State) (v : Byte) (g : StatusFlag) :
    (s.setNZ v).flag g =
      if g = .zero then v == 0 else if g = .negative then v.getLsbD 7 else s.flag g := by
  simp only [State.setNZ, State.flag_setFlag]

/-- Compare changes SR and nothing else (46_compare R133). -/
theorem State.compare_frame (s : State) (r m : Byte) :
    s.compare r m = s.setSr (s.compare r m).sr := rfl

/-- Compare's flags (46_compare R133). -/
theorem State.flag_compare (s : State) (r m : Byte) (g : StatusFlag) :
    (s.compare r m).flag g =
      if g = .zero then r - m == 0 else if g = .negative then (r - m).getLsbD 7
      else if g = .carry then decide (m.toNat ≤ r.toNat) else s.flag g := by
  simp only [State.compare, State.flag_setNZ, State.flag_setFlag]

/-- BIT changes SR and nothing else (43_logic R121). -/
theorem State.bitTest_frame (s : State) (m : Byte) : s.bitTest m = s.setSr (s.bitTest m).sr := rfl

/-- BIT's flags (43_logic R121). -/
theorem State.flag_bitTest (s : State) (m : Byte) (g : StatusFlag) :
    (s.bitTest m).flag g =
      if g = .overflow then m.getLsbD 6 else if g = .negative then m.getLsbD 7
      else if g = .zero then s.a &&& m == 0 else s.flag g := by
  simp only [State.bitTest, State.flag_setFlag]

/-- ADC and SBC write A and SR and nothing else (42_arithmetic R113, R114). -/
theorem State.setAlu_frame (s : State) (r : AluResult) :
    s.setAlu r = (s.setA r.res).setSr (s.setAlu r).sr := rfl

/-- The flags ADC and SBC write (42_arithmetic R113, R114). -/
theorem State.flag_setAlu (s : State) (r : AluResult) (g : StatusFlag) :
    (s.setAlu r).flag g =
      if g = .zero then r.z else if g = .negative then r.n else if g = .overflow then r.v
      else if g = .carry then r.c else s.flag g := by
  simp only [State.setAlu, State.flag_setFlag]
  rfl

/-- Every bit of the pushed copy of SR: Unused 1, Break `b`, the others as they are
(60_exceptions R204). -/
theorem getLsbD_pushedStatus (sr : Byte) (b : Bool) (g : StatusFlag) :
    (pushedStatus sr b).getLsbD g.bit =
      if g = .unused then true else if g = .brk then b else sr.getLsbD g.bit := by
  cases b <;> cases g <;> simp [pushedStatus, StatusFlag.bit]

/-- `SR | 0x30` is the copy with Break 1 (47_stack R139, 49_flags_system R160). -/
theorem pushedStatus_brk (sr : Byte) : pushedStatus sr true = sr ||| 0x30 := by
  apply status_ext
  intro f
  rw [getLsbD_pushedStatus]
  cases f <;> simp [StatusFlag.bit]

end Sys2Proof.Machine
end

