-- ==== Sys2Proof/Laws/Memory.lean ====
section
/-! SUPPORT. The memory contract (20_memory R32): writing keeps the canonical form, a read after a write
to the same address gives the byte written, and every other address reads as before. -/

namespace Sys2Proof.Machine

theorem Memory.wfFrom_cons (lo k : Nat) (b : Byte) (m : Memory) :
    Memory.wfFrom lo ((k, b) :: m) = true ↔
      lo ≤ k ∧ k < 65536 ∧ b ≠ Memory.unlisted ∧ Memory.wfFrom (k + 1) m = true := by
  simp [Memory.wfFrom, and_assoc]

theorem Memory.wfFrom_mono {lo lo' : Nat} (h : lo' ≤ lo) {m : Memory}
    (hm : Memory.wfFrom lo m = true) : Memory.wfFrom lo' m = true := by
  cases m with
  | nil => rfl
  | cons e m =>
    obtain ⟨k, b⟩ := e
    rw [Memory.wfFrom_cons] at hm ⊢
    exact ⟨h.trans hm.1, hm.2⟩

/-- Below the first key that the form allows, nothing is listed. -/
theorem Memory.read_below {lo addr : Nat} (h : addr < lo) {m : Memory}
    (hm : Memory.wfFrom lo m = true) : Memory.read m addr = Memory.unlisted := by
  cases m with
  | nil => rfl
  | cons e m =>
    obtain ⟨k, b⟩ := e
    rw [Memory.wfFrom_cons] at hm
    simp [Memory.read, show addr < k by omega]

theorem Memory.write_wfFrom {lo addr : Nat} (hlo : lo ≤ addr) (ha : addr < 65536) (v : Byte)
    {m : Memory} (hm : Memory.wfFrom lo m = true) :
    Memory.wfFrom lo (Memory.write m addr v) = true := by
  induction m generalizing lo with
  | nil =>
    by_cases hv : v = Memory.unlisted
    · simp [Memory.write, hv, Memory.wfFrom]
    · simp only [Memory.write, hv, if_false, Memory.wfFrom_cons]
      exact ⟨hlo, ha, hv, rfl⟩
  | cons e m ih =>
    obtain ⟨k, b⟩ := e
    have hm' := (Memory.wfFrom_cons lo k b m).1 hm
    obtain ⟨h1, h2, h3, h4⟩ := hm'
    by_cases hlt : addr < k
    · by_cases hv : v = Memory.unlisted
      · simpa [Memory.write, hlt, hv] using hm
      · simp only [Memory.write, hlt, hv, if_true, if_false, Memory.wfFrom_cons]
        exact ⟨hlo, ha, hv, by omega, h2, h3, h4⟩
    · by_cases heq : addr = k
      · by_cases hv : v = Memory.unlisted
        · simpa [Memory.write, heq, hv] using Memory.wfFrom_mono (by omega) h4
        · simp only [Memory.write, heq, hv, lt_irrefl, if_true, if_false, Memory.wfFrom_cons]
          exact ⟨h1, h2, hv, h4⟩
      · simp only [Memory.write, hlt, heq, if_false, Memory.wfFrom_cons]
        exact ⟨h1, h2, h3, ih (by omega) h4⟩

/-- Every write of a byte below 65536 keeps the canonical form. -/
theorem Memory.write_wf {m : Memory} {addr : Nat} (ha : addr < 65536) (v : Byte)
    (hm : Memory.wf m = true) : Memory.wf (Memory.write m addr v) = true :=
  Memory.write_wfFrom (Nat.zero_le _) ha v hm

theorem Memory.read_write_from {lo : Nat} (m : Memory) (addr a : Nat) (v : Byte)
    (hm : Memory.wfFrom lo m = true) :
    Memory.read (Memory.write m addr v) a = if a = addr then v else Memory.read m a := by
  induction m generalizing lo with
  | nil =>
    by_cases hv : v = Memory.unlisted
    · simp [Memory.write, hv, Memory.read]
    · simp only [Memory.write, hv, if_false, Memory.read]
      split <;> split <;> first | rfl | omega
  | cons e m ih =>
    obtain ⟨k, b⟩ := e
    obtain ⟨h1, h2, h3, h4⟩ := (Memory.wfFrom_cons lo k b m).1 hm
    have below : ∀ x, x ≤ k → Memory.read m x = Memory.unlisted := fun x hx =>
      Memory.read_below (Nat.lt_succ_of_le hx) h4
    by_cases hlt : addr < k
    · by_cases hv : v = Memory.unlisted
      · simp only [Memory.write, hlt, hv, if_true, Memory.read]
        by_cases ha : a = addr
        · simp [ha, hlt]
        · simp [ha]
      · simp only [Memory.write, hlt, hv, if_true, if_false, Memory.read]
        by_cases ha : a = addr
        · simp [ha]
        · by_cases hl : a < addr
          · simp [ha, hl, show a < k by omega]
          · simp [ha, hl]
    · by_cases heq : addr = k
      · subst heq
        by_cases hv : v = Memory.unlisted
        · simp only [Memory.write, lt_irrefl, hv, if_true, if_false, Memory.read]
          by_cases ha : a = addr
          · simp [ha, below]
          · by_cases hl : a < addr
            · simp [ha, hl, below a hl.le]
            · simp [ha, hl]
        · simp only [Memory.write, lt_irrefl, hv, if_true, if_false, Memory.read]
          by_cases ha : a = addr
          · simp [ha]
          · simp [ha]
      · simp only [Memory.write, hlt, heq, if_false, Memory.read]
        by_cases hl : a < k
        · simp [hl, show a ≠ addr by omega]
        · by_cases hk : a = k
          · simp [hk, show k ≠ addr by omega]
          · simp only [hl, hk, if_false]
            exact ih h4

/-- A read returns the byte most recently written to that address (20_memory R32); every other address
reads as before the write (R36). -/
theorem Memory.read_write {m : Memory} (hm : Memory.wf m = true) (addr a : Nat) (v : Byte) :
    Memory.read (Memory.write m addr v) a = if a = addr then v else Memory.read m a :=
  Memory.read_write_from m addr a v hm

end Sys2Proof.Machine
end

