-- ==== Sys2Proof/Laws/Ops.lean ====
section
/-! SUPPORT. What each named operation of Machine/Ops.lean does: the fields it writes, the bytes it
stores, and that it keeps the memory canonical. -/

namespace Sys2Proof.Machine

/-- The bytes at all 65536 addresses after a store (20_memory R32, R36). -/
theorem State.memRead_memWrite {s : State} (h : Memory.wf s.mem = true) (a b : Word) (v : Byte) :
    (s.memWrite a v).memRead b = if b = a then v else s.memRead b := by
  simp only [State.memRead, State.memWrite, State.setMem_mem, Memory.read_write h, BitVec.toNat_inj]

theorem State.memWrite_wf {s : State} (h : Memory.wf s.mem = true) (a : Word) (v : Byte) :
    Memory.wf (s.memWrite a v).mem = true :=
  Memory.write_wf a.isLt v h

/-- A store changes the memory and nothing else. -/
theorem State.memWrite_frame (s : State) (a : Word) (v : Byte) :
    s.memWrite a v = s.setMem (s.memWrite a v).mem := rfl

/-- A push changes the memory and SP and nothing else (00_scope R8). -/
theorem State.push_frame (s : State) (v : Byte) :
    s.push v = (s.setMem (s.push v).mem).setSp (s.sp - 1) := rfl

theorem State.push_wf {s : State} (h : Memory.wf s.mem = true) (v : Byte) :
    Memory.wf (s.push v).mem = true :=
  s.memWrite_wf h _ v

/-- The bytes after a push (00_scope R8, 20_memory R43). -/
theorem State.memRead_push {s : State} (h : Memory.wf s.mem = true) (v : Byte) (b : Word) :
    (s.push v).memRead b = if b = stackAddress s.sp then v else s.memRead b :=
  s.memRead_memWrite h _ b v

/-- A stack address as a number: 256 plus the index, so always in page 1 (20_memory R43). -/
theorem toNat_stackAddress (sp : Byte) : (stackAddress sp).toNat = 256 + sp.toNat := by
  have h : sp.toNat < 2 ^ 8 := sp.isLt
  rw [stackAddress, zext16, BitVec.toNat_or, BitVec.toNat_setWidth,
    Nat.mod_eq_of_lt (by omega : sp.toNat < 2 ^ 16)]
  exact (Nat.two_pow_add_eq_or_of_lt h 1).symm

/-- Different indices select different addresses. -/
theorem stackAddress_inj {p q : Byte} : stackAddress p = stackAddress q ↔ p = q := by
  constructor
  · intro h
    have := congrArg BitVec.toNat h
    rw [toNat_stackAddress, toNat_stackAddress] at this
    exact BitVec.eq_of_toNat_eq (by omega)
  · rintro rfl; rfl

/-- The high byte a pushed word leaves, at the higher stack address, and the low byte below it
(20_memory R37). -/
theorem State.memRead_pushWord {s : State} (h : Memory.wf s.mem = true) (w b : Word) :
    (s.pushWord w).memRead b =
      if b = stackAddress (s.sp - 1) then loByte w
      else if b = stackAddress s.sp then hiByte w else s.memRead b := by
  rw [State.pushWord, State.memRead_push (State.push_wf h _), State.memRead_push h]
  rfl

theorem State.pushWord_wf {s : State} (h : Memory.wf s.mem = true) (w : Word) :
    Memory.wf (s.pushWord w).mem = true :=
  State.push_wf (State.push_wf h _) _

/-- A pushed word changes the memory and SP and nothing else. -/
theorem State.pushWord_frame (s : State) (w : Word) :
    s.pushWord w = (s.setMem (s.pushWord w).mem).setSp (s.sp - 1 - 1) := rfl

/-- Entering an interrupt writes the memory, SP, SR and PC and nothing else (60_exceptions R204). -/
theorem State.enterInterrupt_frame (s : State) (vector : Word) (b : Bool) (ret : Word) :
    s.enterInterrupt vector b ret =
      (((s.setMem (s.enterInterrupt vector b ret).mem).setSp (s.sp - 1 - 1 - 1)).setSr
        (s.enterInterrupt vector b ret).sr).setPc (s.enterInterrupt vector b ret).pc := rfl

/-- Entering an interrupt sets I and keeps the other flags, the stored Break and Unused among them
(60_exceptions R204, D9, D16). -/
theorem State.flag_enterInterrupt (s : State) (vector : Word) (b : Bool) (ret : Word) (g : StatusFlag) :
    (s.enterInterrupt vector b ret).flag g = if g = .interruptDisable then true else s.flag g := by
  have h : (s.enterInterrupt vector b ret).sr =
      (((s.pushWord ret).push (pushedStatus s.sr b)).setFlag .interruptDisable true).sr := rfl
  have h' : ((s.pushWord ret).push (pushedStatus s.sr b)).flag g = s.flag g := rfl
  rw [← h', ← State.flag_setFlag, State.flag, h, State.flag]

/-- The memory after an entry: the return address and the status have been pushed. -/
theorem State.mem_enterInterrupt (s : State) (vector : Word) (b : Bool) (ret : Word) :
    (s.enterInterrupt vector b ret).mem =
      ((s.pushWord ret).push (pushedStatus s.sr b)).mem := rfl

theorem State.enterInterrupt_wf {s : State} (h : Memory.wf s.mem = true) (vector : Word) (b : Bool)
    (ret : Word) : Memory.wf (s.enterInterrupt vector b ret).mem = true := by
  rw [State.mem_enterInterrupt]
  exact State.push_wf (State.pushWord_wf h _) _

/-- The three bytes an entry stores, and every other byte as before (60_exceptions R204). -/
theorem State.memRead_enterInterrupt {s : State} (h : Memory.wf s.mem = true) (vector : Word)
    (b : Bool) (ret a : Word) :
    (s.enterInterrupt vector b ret).memRead a =
      if a = stackAddress (s.sp - 1 - 1) then pushedStatus s.sr b
      else if a = stackAddress (s.sp - 1) then loByte ret
      else if a = stackAddress s.sp then hiByte ret else s.memRead a := by
  have h1 : (s.enterInterrupt vector b ret).memRead a =
      ((s.pushWord ret).push (pushedStatus s.sr b)).memRead a := rfl
  rw [h1, State.memRead_push (State.pushWord_wf h _), State.memRead_pushWord h]
  rfl

/-- A vector is outside the stack page, so an entry reads it as it was (60_exceptions R212). -/
theorem State.pc_enterInterrupt {s : State} (h : Memory.wf s.mem = true) (vector : Word) (b : Bool)
    (ret : Word) (hv : 512 ≤ vector.toNat) (hv' : 512 ≤ (vector + 1).toNat) :
    (s.enterInterrupt vector b ret).pc = s.read16 vector := by
  have off : ∀ (a : Word) (p : Byte), 512 ≤ a.toNat → a ≠ stackAddress p := by
    intro a p ha he
    have := congrArg BitVec.toNat he
    rw [toNat_stackAddress] at this
    omega
  have hr : ∀ a : Word, 512 ≤ a.toNat →
      (s.enterInterrupt vector b ret).memRead a = s.memRead a := by
    intro a ha
    rw [State.memRead_enterInterrupt h]
    simp [off a _ ha]
  change concat16 ((s.enterInterrupt vector b ret).memRead (vector + 1))
    ((s.enterInterrupt vector b ret).memRead vector) = _
  rw [hr _ hv, hr _ hv', State.read16]

/-- An entry neither reads nor writes CYC (70_reset R237). -/
theorem State.setCyc_enterInterrupt (s : State) (n : Nat) (vector : Word) (b : Bool) (ret : Word) :
    (s.enterInterrupt vector b ret).setCyc n = (s.setCyc n).enterInterrupt vector b ret := rfl

theorem State.cyc_enterInterrupt (s : State) (vector : Word) (b : Bool) (ret : Word) :
    (s.enterInterrupt vector b ret).cyc = s.cyc := rfl

/-- An entry loads PC from the vector, whatever it was. -/
theorem State.setPc_enterInterrupt (s : State) (p vector : Word) (b : Bool) (ret : Word) :
    (s.setPc p).enterInterrupt vector b ret = s.enterInterrupt vector b ret := by
  have hw : (s.setPc p).pushWord ret = (s.pushWord ret).setPc p := rfl
  have hp : ((s.pushWord ret).setPc p).push (pushedStatus s.sr b) =
      ((s.pushWord ret).push (pushedStatus s.sr b)).setPc p := rfl
  unfold State.enterInterrupt
  rw [hw, State.setPc_sr, hp]
  generalize (s.pushWord ret).push (pushedStatus s.sr b) = t
  rfl

/-- Returning from an interrupt writes SP, SR and PC and nothing else (49_flags_system R161). -/
theorem State.leaveInterrupt_frame (s : State) :
    s.leaveInterrupt =
      ((s.setSp (s.sp + 1 + 1 + 1)).setSr s.popped).setPc s.afterPop.poppedWord := rfl

/-- `reset()` writes PC, SP, SR and `resetDone` and nothing else (70_reset R231). -/
theorem State.resetCall_frame (s : State) :
    s.resetCall =
      (((s.setPc (s.read16 Config.resetVector)).setSp s.params.resetSp).setSr
        s.resetCall.sr).setResetDone true := rfl

/-- `reset()` leaves I = 0 and keeps the other flags (70_reset R230, R231, C6). -/
theorem State.flag_resetCall (s : State) (g : StatusFlag) :
    s.resetCall.flag g = if g = .interruptDisable then false else s.flag g := by
  have h : s.resetCall.flag g =
      ((s.setFlag .interruptDisable true).setFlag .interruptDisable false).flag g := rfl
  rw [h, State.flag_setFlag, State.flag_setFlag]
  split <;> rfl

/-- `irq()` either does nothing or is an entry (60_exceptions R206). -/
theorem State.irq_cases (s : State) :
    (s.flag .interruptDisable = true ∧ s.irq = s) ∨
      (s.flag .interruptDisable = false ∧ s.irq = s.enterInterrupt Config.irqVector false s.pc) := by
  unfold State.irq
  cases h : s.flag .interruptDisable <;> simp

end Sys2Proof.Machine
end

