-- ==== Sys2Proof/Laws/Meaning.lean ====
section
/-! SUPPORT. What each shared shape of Machine/Operands.lean answers, once: always a next state, and
which. A proof about an instruction unfolds `exec` and its one-line meaning, and then cites these. -/

namespace Sys2Proof.Machine

section
variable (s : State) (i : Instr)

theorem State.complete_eq (t : State) (r : Resolved) (extra : Nat) :
    t.complete i r extra = .next (t.setCyc (t.cyc + stepCycles i r.additionalCycles extra)) := rfl

theorem State.readInstr_eq (f : State → Byte → State) :
    s.readInstr i f =
      (f (s.afterFetch i) ((s.afterFetch i).operandValue i.operand)).complete i
        ((s.afterFetch i).resolve i.operand) 0 := rfl

theorem State.storeInstr_eq (v : Byte) :
    s.storeInstr i v =
      ((s.afterFetch i).memWrite ((s.afterFetch i).resolve i.operand).ea v).complete i
        ((s.afterFetch i).resolve i.operand) 0 := rfl

theorem State.modifyInstr_eq (f : Byte → Byte) :
    s.modifyInstr i f =
      (((s.afterFetch i).memWrite ((s.afterFetch i).resolve i.operand).ea
          (f ((s.afterFetch i).operandValue i.operand))).setNZ
            (f ((s.afterFetch i).operandValue i.operand))).complete i
        ((s.afterFetch i).resolve i.operand) 0 := rfl

theorem State.impliedInstr_eq (f : State → State) :
    s.impliedInstr i f = (f (s.afterFetch i)).complete i ⟨0, 0, false⟩ 0 := rfl

theorem State.jumpInstr_eq (f : State → State) :
    s.jumpInstr i f =
      ((f (s.afterFetch i)).setPc ((s.afterFetch i).resolve i.operand).ea).complete i
        ((s.afterFetch i).resolve i.operand) 0 := rfl

/-- A branch writes PC and CYC and nothing else, taken or not (48_control_flow R144). -/
theorem State.branchInstr_frame (c : Bool) :
    ∃ pc cyc, s.branchInstr i c = .next ((s.setPc pc).setCyc cyc) := by
  cases c <;> exact ⟨_, _, rfl⟩

/-- The fetch moves PC and nothing else (10_state R27). -/
theorem State.afterFetch_frame : s.afterFetch i = s.setPc (s.pc + BitVec.ofNat 16 i.length) := rfl

/-- A write back changes A in the Accumulator mode and one byte of memory otherwise (00_scope R11). -/
theorem State.writeBack_cases (t : State) (r : Resolved) (v : Byte) :
    (r.isAcc = true ∧ t.writeBack r v = t.setA v) ∨
      (r.isAcc = false ∧ t.writeBack r v = t.memWrite r.ea v) := by
  unfold State.writeBack
  cases h : r.isAcc <;> simp

end

/-- BRK is an entry through the IRQ/BRK vector that returns to its own address + 2
(49_flags_system R160). -/
theorem exec_brk (s : State) :
    exec .brk s =
      .next ((s.setCyc (s.cyc + 7)).enterInterrupt Config.irqVector true (s.pc + 2)) := by
  have hpc : (s.afterFetch .brk).pc + 1 = s.pc + 2 := BitVec.add_assoc s.pc 1#16 1#16
  have hc : ∀ t : State, t.complete .brk ⟨0, 0, false⟩ 0 = .next (t.setCyc (t.cyc + 7)) :=
    fun _ => rfl
  rw [exec, execBrk, State.impliedInstr_eq, hc, hpc, State.afterFetch_frame,
    State.setPc_enterInterrupt, State.setCyc_enterInterrupt, State.cyc_enterInterrupt]

/-- With no host call waiting, the next event is `fetch_execute_next()`. -/
theorem step_of_script_nil {s : State} (h : s.script = []) : step s = fetchExecute s := by
  simp only [step, nextEvent, h]

/-- Otherwise it is the host's next call, which is then no longer waiting. -/
theorem step_of_script_cons {s : State} {c : HostAction} {rest : List HostAction}
    (h : s.script = c :: rest) : step s = hostMove c (s.setScript rest) := by
  simp only [step, nextEvent, h]

/-- What `fetch_execute_next()` can do: refuse, stop on the recorded fault, or run the instruction at
PC (30_encoding R55, 60_exceptions R201). -/
theorem fetchExecute_cases (s : State) :
    (s.resetDone = false ∧ fetchExecute s = .refused .notReset) ∨
      (s.resetDone = true ∧ ∃ f, s.haltedBy = some f ∧
        fetchExecute s = .fault (.invalidOpcode f.op f.addr)) ∨
      (s.resetDone = true ∧ s.haltedBy = none ∧ fetchExecute s = exec s.fetchInstr s) := by
  unfold fetchExecute
  cases hr : s.resetDone
  · simp
  · cases hh : s.haltedBy with
    | none => simp
    | some f => simp

/-- Loading bytes changes the memory and nothing else (20_memory R33). -/
theorem State.load_frame (bs : List Byte) (s : State) (addr : Word) :
    s.load addr bs = s.setMem (s.load addr bs).mem := by
  induction bs generalizing s addr with
  | nil => rfl
  | cons b bs ih =>
    rw [State.load, ih]
    rfl

/-- `withFetchWord` writes the instruction's bytes, sets `resetDone`, and empties the fault record and
the host's calls; the registers, CYC and the parameters stay. -/
theorem State.withFetchWord_frame (s : State) (nbits w : Nat) :
    s.withFetchWord nbits w =
      (((s.setMem (s.withFetchWord nbits w).mem).setResetDone true).setFaults []).setScript [] := by
  rw [State.withFetchWord, State.harness, State.load_frame]
  rfl

/-- So the next step runs the instruction that stands at PC. -/
theorem step_withFetchWord (s : State) (nbits w : Nat) :
    step (s.withFetchWord nbits w) =
      exec (s.withFetchWord nbits w).fetchInstr (s.withFetchWord nbits w) := by
  have hr : (s.withFetchWord nbits w).resetDone = true := rfl
  have hf : (s.withFetchWord nbits w).faults = [] := rfl
  have hs : (s.withFetchWord nbits w).script = [] := rfl
  have hh : (s.withFetchWord nbits w).haltedBy = none := by
    unfold State.haltedBy
    rw [hf]
    split <;> rfl
  rw [step_of_script_nil hs, fetchExecute, hr, hh]
  rfl

end Sys2Proof.Machine
end

