-- ==== Sys2Proof/Laws/PerInstr.lean ====
section
/-! SUPPORT. Statements for all instructions, made per constructor: the encoder emits exactly
`Instr.length` bytes, 1 to 3 (30_encoding R51, R57). -/

namespace Sys2Proof.Laws

/-- The encoding of a well-formed instruction is as long as its mode says (30_encoding R51). -/
def EncodedLength.Statement (i : Instr) : Prop :=
  i.wf = true → (encode i).length = i.length ∧ 1 ≤ i.length ∧ i.length ≤ 3

theorem EncodedLength.of_isSome {i : Instr} (h : i.wf = true → i.opcode?.isSome = true) :
    EncodedLength.Statement i :=
  fun hw => ⟨encode_length_of_opcode (h hw), i.length_bounds⟩

theorem EncodedLength.lda (o : Operand) : EncodedLength.Statement (.lda o) :=
  of_isSome fun h => by cases o <;> first | rfl | exact Bool.noConfusion h

theorem EncodedLength.ldx (o : Operand) : EncodedLength.Statement (.ldx o) :=
  of_isSome fun h => by cases o <;> first | rfl | exact Bool.noConfusion h

theorem EncodedLength.ldy (o : Operand) : EncodedLength.Statement (.ldy o) :=
  of_isSome fun h => by cases o <;> first | rfl | exact Bool.noConfusion h

theorem EncodedLength.sta (o : Operand) : EncodedLength.Statement (.sta o) :=
  of_isSome fun h => by cases o <;> first | rfl | exact Bool.noConfusion h

theorem EncodedLength.stx (o : Operand) : EncodedLength.Statement (.stx o) :=
  of_isSome fun h => by cases o <;> first | rfl | exact Bool.noConfusion h

theorem EncodedLength.sty (o : Operand) : EncodedLength.Statement (.sty o) :=
  of_isSome fun h => by cases o <;> first | rfl | exact Bool.noConfusion h

theorem EncodedLength.tax : EncodedLength.Statement .tax := of_isSome fun _ => rfl

theorem EncodedLength.txa : EncodedLength.Statement .txa := of_isSome fun _ => rfl

theorem EncodedLength.tay : EncodedLength.Statement .tay := of_isSome fun _ => rfl

theorem EncodedLength.tya : EncodedLength.Statement .tya := of_isSome fun _ => rfl

theorem EncodedLength.tsx : EncodedLength.Statement .tsx := of_isSome fun _ => rfl

theorem EncodedLength.txs : EncodedLength.Statement .txs := of_isSome fun _ => rfl

theorem EncodedLength.adc (o : Operand) : EncodedLength.Statement (.adc o) :=
  of_isSome fun h => by cases o <;> first | rfl | exact Bool.noConfusion h

theorem EncodedLength.sbc (o : Operand) : EncodedLength.Statement (.sbc o) :=
  of_isSome fun h => by cases o <;> first | rfl | exact Bool.noConfusion h

theorem EncodedLength.and (o : Operand) : EncodedLength.Statement (.and o) :=
  of_isSome fun h => by cases o <;> first | rfl | exact Bool.noConfusion h

theorem EncodedLength.ora (o : Operand) : EncodedLength.Statement (.ora o) :=
  of_isSome fun h => by cases o <;> first | rfl | exact Bool.noConfusion h

theorem EncodedLength.eor (o : Operand) : EncodedLength.Statement (.eor o) :=
  of_isSome fun h => by cases o <;> first | rfl | exact Bool.noConfusion h

theorem EncodedLength.bit (o : Operand) : EncodedLength.Statement (.bit o) :=
  of_isSome fun h => by cases o <;> first | rfl | exact Bool.noConfusion h

theorem EncodedLength.asl (o : Operand) : EncodedLength.Statement (.asl o) :=
  of_isSome fun h => by cases o <;> first | rfl | exact Bool.noConfusion h

theorem EncodedLength.lsr (o : Operand) : EncodedLength.Statement (.lsr o) :=
  of_isSome fun h => by cases o <;> first | rfl | exact Bool.noConfusion h

theorem EncodedLength.rol (o : Operand) : EncodedLength.Statement (.rol o) :=
  of_isSome fun h => by cases o <;> first | rfl | exact Bool.noConfusion h

theorem EncodedLength.ror (o : Operand) : EncodedLength.Statement (.ror o) :=
  of_isSome fun h => by cases o <;> first | rfl | exact Bool.noConfusion h

theorem EncodedLength.inc (o : Operand) : EncodedLength.Statement (.inc o) :=
  of_isSome fun h => by cases o <;> first | rfl | exact Bool.noConfusion h

theorem EncodedLength.dec (o : Operand) : EncodedLength.Statement (.dec o) :=
  of_isSome fun h => by cases o <;> first | rfl | exact Bool.noConfusion h

theorem EncodedLength.inx : EncodedLength.Statement .inx := of_isSome fun _ => rfl

theorem EncodedLength.iny : EncodedLength.Statement .iny := of_isSome fun _ => rfl

theorem EncodedLength.dex : EncodedLength.Statement .dex := of_isSome fun _ => rfl

theorem EncodedLength.dey : EncodedLength.Statement .dey := of_isSome fun _ => rfl

theorem EncodedLength.cmp (o : Operand) : EncodedLength.Statement (.cmp o) :=
  of_isSome fun h => by cases o <;> first | rfl | exact Bool.noConfusion h

theorem EncodedLength.cpx (o : Operand) : EncodedLength.Statement (.cpx o) :=
  of_isSome fun h => by cases o <;> first | rfl | exact Bool.noConfusion h

theorem EncodedLength.cpy (o : Operand) : EncodedLength.Statement (.cpy o) :=
  of_isSome fun h => by cases o <;> first | rfl | exact Bool.noConfusion h

theorem EncodedLength.pha : EncodedLength.Statement .pha := of_isSome fun _ => rfl

theorem EncodedLength.pla : EncodedLength.Statement .pla := of_isSome fun _ => rfl

theorem EncodedLength.php : EncodedLength.Statement .php := of_isSome fun _ => rfl

theorem EncodedLength.plp : EncodedLength.Statement .plp := of_isSome fun _ => rfl

theorem EncodedLength.jmp (o : Operand) : EncodedLength.Statement (.jmp o) :=
  of_isSome fun h => by cases o <;> first | rfl | exact Bool.noConfusion h

theorem EncodedLength.jsr (target : Word) : EncodedLength.Statement (.jsr target) :=
  of_isSome fun _ => rfl

theorem EncodedLength.rts : EncodedLength.Statement .rts := of_isSome fun _ => rfl

theorem EncodedLength.bcc (off : Byte) : EncodedLength.Statement (.bcc off) := of_isSome fun _ => rfl

theorem EncodedLength.bcs (off : Byte) : EncodedLength.Statement (.bcs off) := of_isSome fun _ => rfl

theorem EncodedLength.beq (off : Byte) : EncodedLength.Statement (.beq off) := of_isSome fun _ => rfl

theorem EncodedLength.bne (off : Byte) : EncodedLength.Statement (.bne off) := of_isSome fun _ => rfl

theorem EncodedLength.bmi (off : Byte) : EncodedLength.Statement (.bmi off) := of_isSome fun _ => rfl

theorem EncodedLength.bpl (off : Byte) : EncodedLength.Statement (.bpl off) := of_isSome fun _ => rfl

theorem EncodedLength.bvc (off : Byte) : EncodedLength.Statement (.bvc off) := of_isSome fun _ => rfl

theorem EncodedLength.bvs (off : Byte) : EncodedLength.Statement (.bvs off) := of_isSome fun _ => rfl

theorem EncodedLength.clc : EncodedLength.Statement .clc := of_isSome fun _ => rfl

theorem EncodedLength.sec : EncodedLength.Statement .sec := of_isSome fun _ => rfl

theorem EncodedLength.cli : EncodedLength.Statement .cli := of_isSome fun _ => rfl

theorem EncodedLength.sei : EncodedLength.Statement .sei := of_isSome fun _ => rfl

theorem EncodedLength.cld : EncodedLength.Statement .cld := of_isSome fun _ => rfl

theorem EncodedLength.sed : EncodedLength.Statement .sed := of_isSome fun _ => rfl

theorem EncodedLength.clv : EncodedLength.Statement .clv := of_isSome fun _ => rfl

theorem EncodedLength.brk : EncodedLength.Statement .brk := of_isSome fun _ => rfl

theorem EncodedLength.rti : EncodedLength.Statement .rti := of_isSome fun _ => rfl

theorem EncodedLength.nop : EncodedLength.Statement .nop := of_isSome fun _ => rfl

theorem EncodedLength.invalid (op : Byte) : EncodedLength.Statement (.invalid op) :=
  of_isSome fun h => by
    have h' : invalidOpcodes.contains op = true := h
    simp only [Instr.opcode?, Instr.opcodes, Opcodes.select, Instr.operand, h', if_true,
      Option.isSome_some]

end Sys2Proof.Laws
end

