-- ==== Sys2Proof/Tests/Slice0.lean ====
section
/-! SUPPORT. Tests: ill-formed terms refused, words of every constructor decoded, the spec's own
vectors run for one step, and a witness for each obligation that has hypotheses. The expected results
are those of 30_encoding R54 and of 95_test_vectors, whose vector a test names. -/

namespace Sys2Proof.Tests

open Sys2Proof Sys2Proof.Machine Sys2Proof.Stating

/-- A machine that has been reset, with `DECIMAL_MODE = binary` and the bytes of `ram` in memory, as the
vectors of 95_test_vectors start. -/
def machine (pc : Word) (a x y sp sr : Byte) (ram : List (Word × Byte)) : State :=
  ram.foldl (fun s c => s.memWrite c.1 c.2)
    { State.reset with
      pc := pc, a := a, x := x, y := y, sp := sp, sr := sr
      params := { Params.atReset with decimalMode := .binary } }

/-- The same machine with `DECIMAL_MODE = nmos_bcd`. -/
def nmos (s : State) : State := { s with params := { s.params with decimalMode := .nmosBcd } }

/-- The same machine with one host call to be made. -/
def calling (c : HostAction) (s : State) : State := { s with script := [c] }

/-- One step ends with these registers, this cycle count and these bytes changed, and nothing else. -/
def agrees (s : State) (pc : Word) (a x y sp sr : Byte) (cyc : Nat) (ram : List (Word × Byte)) :
    Bool :=
  match step s with
  | .next t =>
    decide (t = { ram.foldl (fun s c => s.memWrite c.1 c.2) s with
      pc := pc, a := a, x := x, y := y, sp := sp, sr := sr, cyc := cyc, script := [] })
  | .fault _ => false
  | .refused _ => false

/-! ### Ill-formed terms (40_addressing_modes R82, 30_encoding R56) -/

/-- No read instruction has an Indirect mode. -/
theorem test_wf_read : (Instr.lda (.indirect 0x1234)).wf = false := by decide

theorem test_wf_store : (Instr.sta (.immediate 0x12)).wf = false := by decide

theorem test_wf_shift : (Instr.asl (.absoluteY 0x1234)).wf = false := by decide

theorem test_wf_modify : (Instr.inc .accumulator).wf = false := by decide

theorem test_wf_load_x : (Instr.ldx (.zeroPageX 0x12)).wf = false := by decide

theorem test_wf_load_y : (Instr.ldy (.absoluteY 0x1234)).wf = false := by decide

theorem test_wf_store_x : (Instr.stx (.absoluteY 0x1234)).wf = false := by decide

theorem test_wf_store_y : (Instr.sty (.absoluteX 0x1234)).wf = false := by decide

theorem test_wf_compare_index : (Instr.cpx (.zeroPageX 0x12)).wf = false := by decide

theorem test_wf_bit : (Instr.bit (.immediate 0x12)).wf = false := by decide

theorem test_wf_jump : (Instr.jmp (.indirectX 0x12)).wf = false := by decide

/-- 0xEA is NOP, so it is no invalid opcode. -/
theorem test_wf_invalid : (Instr.invalid 0xEA).wf = false := by decide

/-- An ill-formed term has no encoding. -/
theorem test_no_encoding : encode (.sta (.immediate 0x12)) = [] := by decide

/-! ### Words written out from 30_encoding R54, opcode bit by bit, operands low byte first (R52) -/

theorem test_decode_loads_and_stores :
    decode [0b10101001, 0x42] = .ok (.lda (.immediate 0x42), []) ∧
    decode [0b10110001, 0x20] = .ok (.lda (.indirectY 0x20), []) ∧
    decode [0b10110110, 0x80] = .ok (.ldx (.zeroPageY 0x80), []) ∧
    decode [0b10111100, 0x34, 0x12] = .ok (.ldy (.absoluteX 0x1234), []) ∧
    decode [0b10000001, 0x20] = .ok (.sta (.indirectX 0x20), []) ∧
    decode [0b10010110, 0x20] = .ok (.stx (.zeroPageY 0x20), []) ∧
    decode [0b10001100, 0xFE, 0xFF] = .ok (.sty (.absolute 0xFFFE), []) := by decide

theorem test_decode_transfers :
    decode [0b10101010] = .ok (.tax, []) ∧ decode [0b10001010] = .ok (.txa, []) ∧
    decode [0b10101000] = .ok (.tay, []) ∧ decode [0b10011000] = .ok (.tya, []) ∧
    decode [0b10111010] = .ok (.tsx, []) ∧ decode [0b10011010] = .ok (.txs, []) := by decide

theorem test_decode_arithmetic_and_logic :
    decode [0b01101001, 0x50] = .ok (.adc (.immediate 0x50), []) ∧
    decode [0b11111101, 0x00, 0x03] = .ok (.sbc (.absoluteX 0x0300), []) ∧
    decode [0b00100101, 0x10] = .ok (.and (.zeroPage 0x10), []) ∧
    decode [0b00011001, 0xF0, 0x12] = .ok (.ora (.absoluteY 0x12F0), []) ∧
    decode [0b01010101, 0x10] = .ok (.eor (.zeroPageX 0x10), []) ∧
    decode [0b00101100, 0x34, 0x12] = .ok (.bit (.absolute 0x1234), []) := by decide

theorem test_decode_shifts :
    decode [0b00001010] = .ok (.asl .accumulator, []) ∧
    decode [0b01000110, 0x10] = .ok (.lsr (.zeroPage 0x10), []) ∧
    decode [0b00110110, 0x10] = .ok (.rol (.zeroPageX 0x10), []) ∧
    decode [0b01111110, 0x34, 0x12] = .ok (.ror (.absoluteX 0x1234), []) := by decide

theorem test_decode_increments :
    decode [0b11101110, 0x34, 0x12] = .ok (.inc (.absolute 0x1234), []) ∧
    decode [0b11000110, 0x10] = .ok (.dec (.zeroPage 0x10), []) ∧
    decode [0b11101000] = .ok (.inx, []) ∧ decode [0b11001000] = .ok (.iny, []) ∧
    decode [0b11001010] = .ok (.dex, []) ∧ decode [0b10001000] = .ok (.dey, []) := by decide

theorem test_decode_compares :
    decode [0b11010001, 0x20] = .ok (.cmp (.indirectY 0x20), []) ∧
    decode [0b11100000, 0x80] = .ok (.cpx (.immediate 0x80), []) ∧
    decode [0b11000100, 0x10] = .ok (.cpy (.zeroPage 0x10), []) := by decide

theorem test_decode_stack :
    decode [0b01001000] = .ok (.pha, []) ∧ decode [0b01101000] = .ok (.pla, []) ∧
    decode [0b00001000] = .ok (.php, []) ∧ decode [0b00101000] = .ok (.plp, []) := by decide

theorem test_decode_control :
    decode [0b01001100, 0x00, 0x90] = .ok (.jmp (.absolute 0x9000), []) ∧
    decode [0b01101100, 0xFF, 0x30] = .ok (.jmp (.indirect 0x30FF), []) ∧
    decode [0b00100000, 0x00, 0x90] = .ok (.jsr 0x9000, []) ∧
    decode [0b01100000] = .ok (.rts, []) := by decide

theorem test_decode_branches :
    decode [0b10010000, 0x01] = .ok (.bcc 0x01, []) ∧
    decode [0b10110000, 0x02] = .ok (.bcs 0x02, []) ∧
    decode [0b11110000, 0x03] = .ok (.beq 0x03, []) ∧
    decode [0b11010000, 0xFB] = .ok (.bne 0xFB, []) ∧
    decode [0b00110000, 0x80] = .ok (.bmi 0x80, []) ∧
    decode [0b00010000, 0x7F] = .ok (.bpl 0x7F, []) ∧
    decode [0b01010000, 0x07] = .ok (.bvc 0x07, []) ∧
    decode [0b01110000, 0x08] = .ok (.bvs 0x08, []) := by decide

theorem test_decode_flags :
    decode [0b00011000] = .ok (.clc, []) ∧ decode [0b00111000] = .ok (.sec, []) ∧
    decode [0b01011000] = .ok (.cli, []) ∧ decode [0b01111000] = .ok (.sei, []) ∧
    decode [0b11011000] = .ok (.cld, []) ∧ decode [0b11111000] = .ok (.sed, []) ∧
    decode [0b10111000] = .ok (.clv, []) := by decide

theorem test_decode_system :
    decode [0b00000000, 0xFF] = .ok (.brk, [0xFF]) ∧
    decode [0b01000000] = .ok (.rti, []) ∧ decode [0b11101010] = .ok (.nop, []) ∧
    decode [0b00000010] = .ok (.invalid 0x02, []) ∧
    decode [0b11111111, 0x00] = .ok (.invalid 0xFF, [0x00]) := by decide

/-- A word cut short is refused by name (30_encoding R51). -/
theorem test_decode_truncated : decode [0b10101101, 0x34] = .error (.truncated 0xAD) := by decide

/-- The table's numbering: the opcode in bits 7..0, the low byte of the operand next. -/
theorem test_table_word : decodeTableWord 24 0x1234FE = some (.inc (.absoluteX 0x1234)) := by decide

/-- A row of 8 bits: the operand byte above it is 0. -/
theorem test_table_word_short : decodeTableWord 8 0xA9 = some (.lda (.immediate 0)) := by decide

theorem test_fetch_word :
    step (State.reset.withFetchWord 24 0x1234FE) =
      .next { State.reset with
        pc := 3, cyc := 7, mem := [(0, 0xFE), (1, 0x34), (2, 0x12), (0x1234, 0x01)] } := rfl

/-! ### Vectors of 95_test_vectors: one step each -/

/-- V1. -/
theorem test_lda_zero_page_x_wraps :
    agrees (machine 0x8000 0x00 0x20 0x00 0xFF 0x20
        [(0x0010, 0x77), (0x0110, 0x11), (0x8000, 0xB5), (0x8001, 0xF0)])
      0x8002 0x77 0x20 0x00 0xFF 0x20 4 [] = true := by decide

/-- V8. -/
theorem test_lda_indirect_y_pointer_wraps :
    agrees (machine 0x8000 0x00 0x00 0x00 0xFF 0x20
        [(0x0000, 0x03), (0x00FF, 0x00), (0x0300, 0x7E), (0x8000, 0xB1), (0x8001, 0xFF)])
      0x8002 0x7E 0x00 0x00 0xFF 0x20 5 [] = true := by decide

/-- V2. -/
theorem test_ldx_zero_page_y_wraps :
    agrees (machine 0x8000 0x00 0x00 0x01 0xFF 0x20
        [(0x0000, 0x5A), (0x8000, 0xB6), (0x8001, 0xFF)])
      0x8002 0x00 0x5A 0x01 0xFF 0x20 4 [] = true := by decide

/-- V15. -/
theorem test_ldy_clears_n_and_z :
    agrees (machine 0x8000 0x00 0x00 0x00 0xFF 0xA2
        [(0x0010, 0x7F), (0x8000, 0xA4), (0x8001, 0x10)])
      0x8002 0x00 0x00 0x7F 0xFF 0x20 3 [] = true := by decide

/-- V9. -/
theorem test_sta_crosses_a_page_in_five_cycles :
    agrees (machine 0x8000 0x66 0x20 0x00 0xFF 0x20
        [(0x8000, 0x9D), (0x8001, 0xF0), (0x8002, 0x12)])
      0x8003 0x66 0x20 0x00 0xFF 0x20 5 [(0x1310, 0x66)] = true := by decide

/-- V17. -/
theorem test_stx_zero_page_y_wraps :
    agrees (machine 0x8000 0x00 0xAB 0x02 0xFF 0x20 [(0x8000, 0x96), (0x8001, 0xFF)])
      0x8002 0x00 0xAB 0x02 0xFF 0x20 4 [(0x0001, 0xAB)] = true := by decide

/-- V18. -/
theorem test_sty_absolute :
    agrees (machine 0x8000 0x00 0x00 0x5C 0xFF 0x20
        [(0x8000, 0x8C), (0x8001, 0x00), (0x8002, 0x02)])
      0x8003 0x00 0x00 0x5C 0xFF 0x20 4 [(0x0200, 0x5C)] = true := by decide

/-- V19. -/
theorem test_tax :
    agrees (machine 0x8000 0x80 0x00 0x00 0xFF 0x20 [(0x8000, 0xAA)])
      0x8001 0x80 0x80 0x00 0xFF 0xA0 2 [] = true := by decide

/-- V20. -/
theorem test_txa :
    agrees (machine 0x8000 0x44 0x00 0x00 0xFF 0x20 [(0x8000, 0x8A)])
      0x8001 0x00 0x00 0x00 0xFF 0x22 2 [] = true := by decide

/-- V21. -/
theorem test_tay :
    agrees (machine 0x8000 0x01 0x00 0x00 0xFF 0x22 [(0x8000, 0xA8)])
      0x8001 0x01 0x00 0x01 0xFF 0x20 2 [] = true := by decide

/-- V22. -/
theorem test_tya :
    agrees (machine 0x8000 0x00 0x00 0xFF 0xFF 0x20 [(0x8000, 0x98)])
      0x8001 0xFF 0x00 0xFF 0xFF 0xA0 2 [] = true := by decide

/-- V23. -/
theorem test_tsx_sets_z :
    agrees (machine 0x8000 0x00 0x55 0x00 0x00 0x20 [(0x8000, 0xBA)])
      0x8001 0x00 0x00 0x00 0x00 0x22 2 [] = true := by decide

/-- V24. -/
theorem test_txs_sets_no_flag :
    agrees (machine 0x8000 0x00 0x80 0x00 0xFF 0x22 [(0x8000, 0x9A)])
      0x8001 0x00 0x80 0x00 0x80 0x22 2 [] = true := by decide

/-- V25. -/
theorem test_adc_signed_overflow :
    agrees (machine 0x8000 0x50 0x00 0x00 0xFF 0x20 [(0x8000, 0x69), (0x8001, 0x50)])
      0x8002 0xA0 0x00 0x00 0xFF 0xE0 2 [] = true := by decide

/-- V38. -/
theorem test_adc_decimal :
    agrees (nmos (machine 0x8000 0x58 0x00 0x00 0xFF 0x29 [(0x8000, 0x69), (0x8001, 0x46)]))
      0x8002 0x05 0x00 0x00 0xFF 0xE9 2 [] = true := by decide

/-- V31. -/
theorem test_sbc_borrows :
    agrees (machine 0x8000 0x00 0x00 0x00 0xFF 0x21 [(0x8000, 0xE9), (0x8001, 0x01)])
      0x8002 0xFF 0x00 0x00 0xFF 0xA0 2 [] = true := by decide

/-- V42. -/
theorem test_sbc_decimal :
    agrees (nmos (machine 0x8000 0x00 0x00 0x00 0xFF 0x29 [(0x8000, 0xE9), (0x8001, 0x01)]))
      0x8002 0x99 0x00 0x00 0xFF 0xA8 2 [] = true := by decide

/-- V45. -/
theorem test_and :
    agrees (machine 0x8000 0xF0 0x00 0x00 0xFF 0x20 [(0x8000, 0x29), (0x8001, 0x0F)])
      0x8002 0x00 0x00 0x00 0xFF 0x22 2 [] = true := by decide

/-- V46. -/
theorem test_ora :
    agrees (machine 0x8000 0x01 0x00 0x00 0xFF 0x20 [(0x8000, 0x09), (0x8001, 0x80)])
      0x8002 0x81 0x00 0x00 0xFF 0xA0 2 [] = true := by decide

/-- V47. -/
theorem test_eor :
    agrees (machine 0x8000 0xA5 0x00 0x00 0xFF 0x20 [(0x8000, 0x49), (0x8001, 0xA5)])
      0x8002 0x00 0x00 0x00 0xFF 0x22 2 [] = true := by decide

/-- V48. -/
theorem test_bit :
    agrees (machine 0x8000 0x01 0x00 0x00 0xFF 0x20
        [(0x0010, 0xC0), (0x8000, 0x24), (0x8001, 0x10)])
      0x8002 0x01 0x00 0x00 0xFF 0xE2 3 [] = true := by decide

/-- V55. -/
theorem test_asl_memory_in_seven_cycles :
    agrees (machine 0x8000 0x00 0x20 0x00 0xFF 0x20
        [(0x1310, 0x41), (0x8000, 0x1E), (0x8001, 0xF0), (0x8002, 0x12)])
      0x8003 0x00 0x20 0x00 0xFF 0xA0 7 [(0x1310, 0x82)] = true := by decide

/-- V56. -/
theorem test_lsr_memory :
    agrees (machine 0x8000 0x77 0x00 0x00 0xFF 0x20
        [(0x0010, 0x02), (0x8000, 0x46), (0x8001, 0x10)])
      0x8002 0x77 0x00 0x00 0xFF 0x20 5 [(0x0010, 0x01)] = true := by decide

/-- V53. -/
theorem test_rol_carry_in :
    agrees (machine 0x8000 0x40 0x00 0x00 0xFF 0x21 [(0x8000, 0x2A)])
      0x8001 0x81 0x00 0x00 0xFF 0xA0 2 [] = true := by decide

/-- V54. -/
theorem test_ror_carry_in :
    agrees (machine 0x8000 0x01 0x00 0x00 0xFF 0x21 [(0x8000, 0x6A)])
      0x8001 0x80 0x00 0x00 0xFF 0xA1 2 [] = true := by decide

/-- V58. -/
theorem test_inc_wraps_and_keeps_c :
    agrees (machine 0x8000 0x00 0x00 0x00 0xFF 0x21
        [(0x0010, 0xFF), (0x8000, 0xE6), (0x8001, 0x10)])
      0x8002 0x00 0x00 0x00 0xFF 0x23 5 [(0x0010, 0x00)] = true := by decide

/-- V59. -/
theorem test_dec_wraps :
    agrees (machine 0x8000 0x00 0x00 0x00 0xFF 0x20
        [(0x0300, 0x00), (0x8000, 0xDE), (0x8001, 0x00), (0x8002, 0x03)])
      0x8003 0x00 0x00 0x00 0xFF 0xA0 7 [(0x0300, 0xFF)] = true := by decide

/-- V60. -/
theorem test_inx_wraps :
    agrees (machine 0x8000 0x00 0xFF 0x00 0xFF 0x20 [(0x8000, 0xE8)])
      0x8001 0x00 0x00 0x00 0xFF 0x22 2 [] = true := by decide

/-- V61. -/
theorem test_iny_sets_n :
    agrees (machine 0x8000 0x00 0x00 0x7F 0xFF 0x20 [(0x8000, 0xC8)])
      0x8001 0x00 0x00 0x80 0xFF 0xA0 2 [] = true := by decide

/-- V62. -/
theorem test_dex_wraps :
    agrees (machine 0x8000 0x00 0x00 0x00 0xFF 0x20 [(0x8000, 0xCA)])
      0x8001 0x00 0xFF 0x00 0xFF 0xA0 2 [] = true := by decide

/-- V63. -/
theorem test_dey_to_zero :
    agrees (machine 0x8000 0x00 0x00 0x01 0xFF 0x20 [(0x8000, 0x88)])
      0x8001 0x00 0x00 0x00 0xFF 0x22 2 [] = true := by decide

/-- V64. -/
theorem test_cmp_equal :
    agrees (machine 0x8000 0x42 0x00 0x00 0xFF 0x20 [(0x8000, 0xC9), (0x8001, 0x42)])
      0x8002 0x42 0x00 0x00 0xFF 0x23 2 [] = true := by decide

/-- V67. -/
theorem test_cmp_is_unsigned :
    agrees (machine 0x8000 0x00 0x00 0x00 0xFF 0x20 [(0x8000, 0xC9), (0x8001, 0xFF)])
      0x8002 0x00 0x00 0x00 0xFF 0x20 2 [] = true := by decide

/-- V68. -/
theorem test_cpx_keeps_d_and_v :
    agrees (machine 0x8000 0x00 0x10 0x00 0xFF 0x68
        [(0x0010, 0x10), (0x8000, 0xE4), (0x8001, 0x10)])
      0x8002 0x00 0x10 0x00 0xFF 0x6B 3 [] = true := by decide

/-- V69. -/
theorem test_cpy_below :
    agrees (machine 0x8000 0x00 0x00 0x00 0xFF 0x20
        [(0x0200, 0x01), (0x8000, 0xCC), (0x8001, 0x00), (0x8002, 0x02)])
      0x8003 0x00 0x00 0x00 0xFF 0xA0 4 [] = true := by decide

/-- V70. -/
theorem test_pha_at_sp_zero :
    agrees (machine 0x8000 0x84 0x00 0x00 0x00 0x20 [(0x8000, 0x48)])
      0x8001 0x84 0x00 0x00 0xFF 0x20 3 [(0x0100, 0x84)] = true := by decide

/-- V71. -/
theorem test_pla_at_sp_ff :
    agrees (machine 0x8000 0x00 0x00 0x00 0xFF 0x20 [(0x0100, 0x00), (0x8000, 0x68)])
      0x8001 0x00 0x00 0x00 0x00 0x22 4 [] = true := by decide

/-- V72. -/
theorem test_php_sets_b_and_u :
    agrees (machine 0x8000 0x00 0x00 0x00 0xFF 0x01 [(0x8000, 0x08)])
      0x8001 0x00 0x00 0x00 0xFE 0x01 3 [(0x01FF, 0x31)] = true := by decide

/-- V73. -/
theorem test_plp_is_verbatim :
    agrees (machine 0x8000 0x00 0x00 0x00 0xFE 0xFF [(0x01FF, 0x00), (0x8000, 0x28)])
      0x8001 0x00 0x00 0x00 0xFF 0x00 4 [] = true := by decide

/-- V10. -/
theorem test_jmp_indirect_within_its_page :
    agrees (machine 0x8000 0x00 0x00 0x00 0xFF 0x20
        [(0x3000, 0x40), (0x30FF, 0x00), (0x3100, 0x50), (0x8000, 0x6C), (0x8001, 0xFF),
          (0x8002, 0x30)])
      0x4000 0x00 0x00 0x00 0xFF 0x20 5 [] = true := by decide

/-- V75. -/
theorem test_jmp_absolute :
    agrees (machine 0x8000 0x00 0x00 0x00 0xFF 0x20
        [(0x8000, 0x4C), (0x8001, 0x00), (0x8002, 0x90)])
      0x9000 0x00 0x00 0x00 0xFF 0x20 3 [] = true := by decide

/-- V78. -/
theorem test_jsr_at_the_top_of_memory :
    agrees (machine 0xFFFD 0x00 0x00 0x00 0xFF 0x20
        [(0xFFFD, 0x20), (0xFFFE, 0x00), (0xFFFF, 0x90)])
      0x9000 0x00 0x00 0x00 0xFD 0x20 6 [(0x01FE, 0xFF), (0x01FF, 0xFF)] = true := by decide

/-- V79. -/
theorem test_rts_wraps :
    agrees (machine 0x8000 0x00 0x00 0x00 0xFD 0x20
        [(0x01FE, 0xFF), (0x01FF, 0xFF), (0x8000, 0x60)])
      0x0000 0x00 0x00 0x00 0xFF 0x20 6 [] = true := by decide

/-- V85. -/
theorem test_bcc_taken_offset_zero :
    agrees (machine 0x8000 0x00 0x00 0x00 0xFF 0x20 [(0x8000, 0x90), (0x8001, 0x00)])
      0x8002 0x00 0x00 0x00 0xFF 0x20 3 [] = true := by decide

/-- V86. -/
theorem test_bcs_not_taken :
    agrees (machine 0x8000 0x00 0x00 0x00 0xFF 0x20 [(0x8000, 0xB0), (0x8001, 0x10)])
      0x8002 0x00 0x00 0x00 0xFF 0x20 2 [] = true := by decide

/-- V82. -/
theorem test_beq_taken_to_another_page :
    agrees (machine 0x80F0 0x00 0x00 0x00 0xFF 0x22 [(0x80F0, 0xF0), (0x80F1, 0x20)])
      0x8112 0x00 0x00 0x00 0xFF 0x22 4 [] = true := by decide

/-- V81. -/
theorem test_bne_taken_backwards :
    agrees (machine 0x8008 0x00 0x00 0x00 0xFF 0x20 [(0x8008, 0xD0), (0x8009, 0xFB)])
      0x8005 0x00 0x00 0x00 0xFF 0x20 3 [] = true := by decide

/-- V83. -/
theorem test_bmi_lowest_offset :
    agrees (machine 0x8000 0x00 0x00 0x00 0xFF 0xA0 [(0x8000, 0x30), (0x8001, 0x80)])
      0x7F82 0x00 0x00 0x00 0xFF 0xA0 4 [] = true := by decide

/-- V87. -/
theorem test_bpl_to_itself :
    agrees (machine 0x8000 0x00 0x00 0x00 0xFF 0x20 [(0x8000, 0x10), (0x8001, 0xFE)])
      0x8000 0x00 0x00 0x00 0xFF 0x20 3 [] = true := by decide

/-- V88. -/
theorem test_bvc_not_taken :
    agrees (machine 0x8000 0x00 0x00 0x00 0xFF 0x60 [(0x8000, 0x50), (0x8001, 0x05)])
      0x8002 0x00 0x00 0x00 0xFF 0x60 2 [] = true := by decide

/-- V84. -/
theorem test_bvs_wraps_around_memory :
    agrees (machine 0xFFF0 0x00 0x00 0x00 0xFF 0x60 [(0xFFF0, 0x70), (0xFFF1, 0x7F)])
      0x0071 0x00 0x00 0x00 0xFF 0x60 4 [] = true := by decide

/-- V89. -/
theorem test_clc :
    agrees (machine 0x8000 0x00 0x00 0x00 0xFF 0x21 [(0x8000, 0x18)])
      0x8001 0x00 0x00 0x00 0xFF 0x20 2 [] = true := by decide

/-- V90. -/
theorem test_sec :
    agrees (machine 0x8000 0x00 0x00 0x00 0xFF 0x20 [(0x8000, 0x38)])
      0x8001 0x00 0x00 0x00 0xFF 0x21 2 [] = true := by decide

/-- V91. -/
theorem test_cli :
    agrees (machine 0x8000 0x00 0x00 0x00 0xFF 0x24 [(0x8000, 0x58)])
      0x8001 0x00 0x00 0x00 0xFF 0x20 2 [] = true := by decide

/-- V92. -/
theorem test_sei :
    agrees (machine 0x8000 0x00 0x00 0x00 0xFF 0x20 [(0x8000, 0x78)])
      0x8001 0x00 0x00 0x00 0xFF 0x24 2 [] = true := by decide

/-- V93. -/
theorem test_cld :
    agrees (machine 0x8000 0x00 0x00 0x00 0xFF 0x28 [(0x8000, 0xD8)])
      0x8001 0x00 0x00 0x00 0xFF 0x20 2 [] = true := by decide

/-- V94. -/
theorem test_sed :
    agrees (machine 0x8000 0x00 0x00 0x00 0xFF 0x20 [(0x8000, 0xF8)])
      0x8001 0x00 0x00 0x00 0xFF 0x28 2 [] = true := by decide

/-- V95. -/
theorem test_clv :
    agrees (machine 0x8000 0x00 0x00 0x00 0xFF 0x60 [(0x8000, 0xB8)])
      0x8001 0x00 0x00 0x00 0xFF 0x20 2 [] = true := by decide

/-- V96. -/
theorem test_brk_pushes_pc_plus_two :
    agrees (machine 0x800C 0x00 0x00 0x00 0xFF 0x23
        [(0xFFFE, 0x00), (0xFFFF, 0x90), (0x800C, 0x00), (0x800D, 0xFF)])
      0x9000 0x00 0x00 0x00 0xFC 0x27 7 [(0x01FD, 0x33), (0x01FE, 0x0E), (0x01FF, 0x80)] = true := by decide

/-- V97. -/
theorem test_rti_restores_b_as_popped :
    agrees (machine 0x9000 0x00 0x00 0x00 0xFC 0x20
        [(0x01FD, 0x33), (0x01FE, 0x0E), (0x01FF, 0x80), (0x9000, 0x40)])
      0x800E 0x00 0x00 0x00 0xFF 0x33 6 [] = true := by decide

/-- V98. -/
theorem test_nop :
    agrees (machine 0x8000 0x00 0x00 0x00 0xFF 0x20 [(0x8000, 0xEA)])
      0x8001 0x00 0x00 0x00 0xFF 0x20 2 [] = true := by decide

/-- V101. -/
theorem test_irq_serviced :
    agrees (calling .irq (machine 0x8003 0x00 0x00 0x00 0xFF 0x20 [(0xFFFE, 0x00), (0xFFFF, 0x90)]))
      0x9000 0x00 0x00 0x00 0xFC 0x24 0 [(0x01FD, 0x20), (0x01FE, 0x03), (0x01FF, 0x80)] = true := by decide

/-- V102. -/
theorem test_irq_masked :
    agrees (calling .irq (machine 0x8003 0x00 0x00 0x00 0xFF 0x24 [(0xFFFE, 0x00), (0xFFFF, 0x90)]))
      0x8003 0x00 0x00 0x00 0xFF 0x24 0 [] = true := by decide

/-- V103. -/
theorem test_nmi_with_i_set :
    agrees (calling .nmi (machine 0x8003 0x00 0x00 0x00 0xFF 0x34 [(0xFFFA, 0x00), (0xFFFB, 0xA0)]))
      0xA000 0x00 0x00 0x00 0xFC 0x34 0 [(0x01FD, 0x24), (0x01FE, 0x03), (0x01FF, 0x80)] = true := by decide

/-- V104. -/
theorem test_irq_wraps_in_the_stack_page :
    agrees (calling .irq (machine 0x1234 0x00 0x00 0x00 0x02 0x13 [(0xFFFE, 0x00), (0xFFFF, 0x90)]))
      0x9000 0x00 0x00 0x00 0xFF 0x17 0 [(0x0100, 0x23), (0x0101, 0x34), (0x0102, 0x12)] = true := by decide

/-- V105. -/
theorem test_reset :
    agrees (calling .reset (machine 0x1234 0x11 0x22 0x33 0x10 0xCF
        [(0xFFFC, 0x00), (0xFFFD, 0x80)]))
      0x8000 0x11 0x22 0x33 0xFD 0xCB 0 [] = true := by decide

/-- V99: the invalid opcode is recorded, PC has advanced by one, nothing else has changed. -/
theorem test_invalid :
    step (machine 0x8000 0 0 0 0xFF 0x20 [(0x8000, 0x02)]) =
      .next { machine 0x8001 0 0 0 0xFF 0x20 [(0x8000, 0x02)] with
        faults := [⟨0x02, 0x8000⟩] } := rfl

/-- V100: an invalid opcode at the top of memory; PC wraps. -/
theorem test_invalid_wraps :
    step (machine 0xFFFF 0 0 0 0xFF 0x20 [(0xFFFF, 0xFF)]) =
      .next { machine 0x0000 0 0 0 0xFF 0x20 [(0xFFFF, 0xFF)] with
        faults := [⟨0xFF, 0xFFFF⟩] } := rfl

/-- 60_exceptions R201: under `fatal` no step follows a recorded fault. -/
theorem test_fatal :
    step { machine 0x8001 0 0 0 0xFF 0x20 [] with faults := [⟨0x02, 0x8000⟩] } =
      .fault (.invalidOpcode 0x02 0x8000) := rfl

/-- 30_encoding R55: a step before the first reset is refused. -/
theorem test_not_reset : step State.creation = .refused .notReset := rfl

/-- 70_reset R233: the loader writes before the first reset. -/
theorem test_load_before_reset :
    step { State.creation with script := [.memWrite 0xFFFD 0x80] } =
      .next { State.creation with mem := [(0xFFFD, 0x80)] } := rfl

/-- 70_reset R240: PC = STOP_PC ends a run before the instruction there is fetched. -/
theorem test_stop : (machine 0x8000 0 0 0 0xFF 0x20 []).endedAt 0x8000 = true := by decide

/-! ### Witnesses: states and operands that meet the hypotheses of each obligation that has any -/

/-- The state of most witnesses: registers, an interrupt's three bytes on the stack, vectors. -/
def here : State :=
  machine 0x8000 0x12 0x34 0x56 0xFC 0x20
    [(0x01FD, 0x33), (0x01FE, 0x0E), (0x01FF, 0x80), (0xFFFA, 0x00), (0xFFFB, 0xA0), (0xFFFE, 0x00),
      (0xFFFF, 0x90)]

/-- The same state with the stack index at the ends of its range. -/
def hereAt (sp : Byte) : State := { here with sp := sp }

/-- O1. -/
theorem witness_decode_of_encode :
    (Instr.lda (.indirectY 0xFF)).wf = true ∧ (Instr.jmp (.indirect 0xFFFF)).wf = true ∧
      (Instr.invalid 0xFF).wf = true := by decide

/-- O2. -/
theorem witness_encode_of_decode :
    decode [0xB1, 0xFF, 0x00] = .ok (.lda (.indirectY 0xFF), [0x00]) := by decide

/-- O5: the targets at both ends of the range, the first ones outside it (R59), and a target
across 0xFFFF (R79's corner case, D3). -/
theorem witness_assembled_branch :
    branchOffset 0x8000 0x8081 = some 0x7F ∧ branchOffset 0x8000 0x7F82 = some 0x80 ∧
      branchOffset 0x8000 0x8082 = none ∧ branchOffset 0x8000 0x7F81 = none ∧
      branchOffset 0xFFF0 0x0071 = some 0x7F := by decide

/-- O6, O8: the modes that one mnemonic or two take. -/
theorem witness_modes_of_few :
    (Instr.ldx (.zeroPageY 0xFF)).wf = true ∧ (Instr.stx (.zeroPageY 0xFF)).wf = true ∧
      (Instr.ldx (.zeroPageY 0xFF)).operand = .zeroPageY 0xFF ∧
      (Instr.jmp (.indirect 0x30FF)).wf = true ∧
      (Instr.jmp (.indirect 0x30FF)).operand = .indirect (concat16 0x30 0xFF) := by decide

/-- O11: the Accumulator mode, and a mode that is neither it nor Immediate. -/
theorem witness_operand_modes :
    (Instr.asl .accumulator).operand = .accumulator ∧
      (Instr.lda (.indirectY 0xFF)).operand ≠ .accumulator ∧
      ∀ imm, (Instr.lda (.indirectY 0xFF)).operand ≠ .immediate imm := by
  refine ⟨rfl, by decide, ?_⟩
  intro imm h
  cases h

/-- O11, with the opcode at the top of memory. -/
theorem witness_immediate_operand :
    (machine 0xFFFF 0 0 0 0xFF 0x20 [(0xFFFF, 0xA9), (0x0000, 0x42)]).fetchInstr.operand =
      .immediate 0x42 := by decide

/-- O13, O27, O31, O36, O39, O40, O41: the stores, the pushes, JSR, BRK and the interrupt entries. -/
theorem witness_memory_wf : Memory.wf here.mem = true := by decide

/-- O29, O27: at both ends of the stack page, and 256 bytes to push. -/
theorem witness_memory_wf_at :
    Memory.wf (hereAt 0x00).mem = true ∧ (hereAt 0x00).sp = 0 ∧
      Memory.wf (hereAt 0xFF).mem = true ∧ (hereAt 0xFF).sp = 0xFF ∧
      (List.replicate 256 (0x12 : Byte)).length = 256 :=
  ⟨by decide, rfl, by decide, rfl, List.length_replicate⟩

/-- O22, O23, O24. -/
theorem witness_modify :
    Operand.isModify (.zeroPageX 0xFF) = true ∧ Operand.isModify (.absoluteX 0xFFFF) = true ∧
      Memory.wf here.mem = true := by decide

/-- O19: the least and the greatest decimal numbers. -/
theorem witness_bcd : IsBcd 0x00 ∧ IsBcd 0x99 :=
  ⟨⟨by decide, by decide⟩, ⟨by decide, by decide⟩⟩

/-- O17, O18: D = 0; D = 1 under `binary`; D = 1 under `nmos_bcd` and under the free values: the
cases of ADC and SBC. -/
theorem witness_decimal :
    here.flag .decimal = false ∧
      (State.setSr here 0x28).flag .decimal = true ∧ here.params.decimalMode = .binary ∧
      ((nmos here).setSr 0x28).flag .decimal = true ∧ (nmos here).params.decimalMode = .nmosBcd ∧
      (State.setSr State.reset 0x28).flag .decimal = true ∧
      State.reset.params.decimalMode = .uninterpreted := by decide

/-- O33, with the stack index wrapping. -/
theorem witness_jsr_then_rts :
    Memory.wf (hereAt 0x00).mem = true ∧
      ∃ t, exec (.jsr 0x9000) (hereAt 0x00) = .next t ∧ t.sp = 0xFE :=
  ⟨by decide, _, rfl, rfl⟩

/-- O38: the first and the last of the invalid bytes. -/
theorem witness_invalid :
    Enabled (machine 0x8000 0 0 0 0xFF 0x20 [(0x8000, 0x02)]) ∧
      (machine 0x8000 0 0 0 0xFF 0x20 [(0x8000, 0x02)]).script = [] ∧
      invalidOpcodes.contains ((machine 0x8000 0 0 0 0xFF 0x20 [(0x8000, 0x02)]).memRead 0x8000) =
        true ∧ invalidOpcodes.contains 0xFF = true :=
  ⟨⟨rfl, .inl rfl⟩, rfl, by decide, by decide⟩

/-- O39, O41: I = 1, and I = 0 with a canonical memory. -/
theorem witness_irq :
    (State.setSr here 0x24).flag .interruptDisable = true ∧
      here.flag .interruptDisable = false ∧ Memory.wf here.mem = true := by decide

/-- O42: an entry by `nmi()` with I set, and one by `irq()` with I clear. -/
theorem witness_interrupted :
    Memory.wf here.mem = true ∧ (∃ t, t = (State.setSr here 0x24).nmi ∧ t.pc = 0xA000) ∧
      (∃ t, t = here.irq ∧ here.flag .interruptDisable = false ∧ t.pc = 0x9000) :=
  ⟨by decide, ⟨_, rfl, by decide⟩, ⟨_, rfl, by decide, by decide⟩⟩

/-- O43, with the stack index wrapping. -/
theorem witness_brk :
    Memory.wf (hereAt 0x01).mem = true ∧ ∃ t, exec .brk (hereAt 0x01) = .next t ∧ t.sp = 0xFE :=
  ⟨by decide, _, rfl, rfl⟩

/-- O46, O50: a step with no host call waiting, and one with the host's `fetch_execute_next()` first. -/
theorem witness_step :
    Enabled here ∧ Enabled (calling .fetchExecute here) ∧ here.script = [] ∧
      (calling .fetchExecute here).script = [.fetchExecute] ∧
      decode [here.memRead here.pc, here.memRead (here.pc + 1), here.memRead (here.pc + 2)] =
        .ok (.brk, [0x00, 0x00]) :=
  ⟨⟨rfl, .inl rfl⟩, ⟨rfl, .inl rfl⟩, rfl, rfl, by decide⟩

/-- O47. -/
theorem witness_host_calls : here.resetDone = true := rfl

/-- O48. -/
theorem witness_before_reset : State.creation.resetDone = false := rfl

/-- O49, O50: the fault record under both policies. -/
theorem witness_faulted :
    let s : State := { here with faults := [⟨0x02, 0x8000⟩] }
    let s' : State := { s with params := { s.params with onInvalid := .skip } }
    s.resetDone = true ∧ s.faults = ⟨0x02, 0x8000⟩ :: [] ∧ s.script = [] ∧
      s.params.onInvalid = .fatal ∧ s'.params.onInvalid = .skip ∧ Enabled s' :=
  ⟨rfl, rfl, rfl, rfl, rfl, rfl, .inr rfl⟩

/-- O51. -/
theorem witness_invariant : here.Inv ∧ ∃ t, step here = .next t ∧ t.pc = 0x9000 :=
  ⟨⟨by decide, rfl, by decide⟩, _, rfl, by decide⟩

/-- O54: an instruction with a count, and one without. -/
theorem witness_cycles :
    (Instr.lda (.absoluteX 0x12F0)).wf = true ∧ (Instr.invalid 0x02).wf = true ∧
      ∀ op, Instr.lda (.absoluteX 0x12F0) ≠ .invalid op := by
  refine ⟨by decide, by decide, ?_⟩
  intro op h
  cases h

/-- O55, O56, O57: ADC leaves D, the other registers and memory alone. -/
theorem witness_frames :
    StatusFlag.decimal ≠ .negative ∧ StatusFlag.decimal ≠ .zero ∧
      writesFlag .decimal (.adc (.immediate 0x01)) = false ∧
      (Instr.adc (.immediate 0x01)).wf = true ∧ stores (.adc (.immediate 0x01)) = false ∧
      writesX (.adc (.immediate 0x01)) = false ∧ writesY (.adc (.immediate 0x01)) = false ∧
      writesSp (.adc (.immediate 0x01)) = false ∧ writesA (.inx) = false ∧
      ∃ t, exec (.adc (.immediate 0x01)) here = .next t ∧ t.a = 0x13 :=
  ⟨by decide, by decide, rfl, rfl, rfl, rfl, rfl, rfl, rfl, _, rfl, by decide⟩

/-- O58: each way onto the stack, and the addresses next to the stack page. -/
theorem witness_stack_page :
    Memory.wf (hereAt 0x00).mem = true ∧ (∃ t, exec .pha (hereAt 0x00) = .next t) ∧
      (∃ t, exec .php (hereAt 0x00) = .next t) ∧ (∃ t, exec (.jsr 0x9000) (hereAt 0x00) = .next t) ∧
      (∃ t, exec .brk (hereAt 0x00) = .next t) ∧ (0x00FF#16).toNat < 256 ∧
      512 ≤ (0x0200#16).toNat :=
  ⟨by decide, ⟨_, rfl⟩, ⟨_, rfl⟩, ⟨_, rfl⟩, ⟨_, rfl⟩, by decide, by decide⟩

/-- O59. -/
theorem witness_fault_record :
    ∃ t, step (machine 0x8000 0 0 0 0xFF 0x20 [(0x8000, 0x02)]) = .next t ∧ t.faults ≠ [] :=
  ⟨_, rfl, by decide⟩

/-- O60: a run that ends at once, and one that ends after one step (NOP). -/
theorem witness_run :
    (∃ t, runTo 0x8000 0 here = .ended t) ∧
      ∃ t, runTo 0x8001 1 (machine 0x8000 0 0 0 0xFF 0x20 [(0x8000, 0xEA)]) = .ended t :=
  ⟨⟨_, rfl⟩, _, rfl⟩

end Sys2Proof.Tests
end

section
/-! The stack page (20_memory R43): pushes one after another, and what a pop gives back. -/

namespace Sys2Proof.Proofs

open Sys2Proof Sys2Proof.Machine Sys2Proof.Stating

/-- The statements' slot of an index is the address the model computes (10_state R17). -/
theorem slot_eq_stackAddress (sp : Byte) : slot sp = stackAddress sp := by
  have hsp : sp.toNat < 256 := sp.isLt
  apply BitVec.eq_of_toNat_eq
  rw [toNat_stackAddress, slot, BitVec.toNat_ofNat, Nat.mod_eq_of_lt (by omega)]

@[simp] theorem push_sp (s : State) (v : Byte) : (s.push v).sp = s.sp - 1 := rfl

@[simp] theorem afterPop_sp (s : State) : s.afterPop.sp = s.sp + 1 := rfl

/-- The pop after a push restores SP, across both ends of the page (R43(b)). -/
theorem sp_afterPop_push (s : State) (v : Byte) : (s.push v).afterPop.sp = s.sp :=
  BitVec.sub_add_cancel s.sp 1

/-- The byte just pushed stands at the slot SP selected before the push. -/
theorem memRead_push_same {s : State} (h : Memory.wf s.mem = true) (v : Byte) :
    (s.push v).memRead (stackAddress s.sp) = v := by
  rw [State.memRead_push h, if_pos rfl]

/-- The pop after a push returns the byte (R43(b)). -/
theorem popped_push {s : State} (h : Memory.wf s.mem = true) (v : Byte) :
    (s.push v).popped = v := by
  rw [State.popped, push_sp, BitVec.sub_add_cancel, memRead_push_same h]

/-- One push, in the form in which the statements give the bytes that pushes leave. -/
theorem pushed_push {s : State} (h : Memory.wf s.mem = true) (v : Byte) :
    Pushed s.mem (s.push v).mem s.sp [v] := by
  constructor
  · intro k hk
    obtain rfl : k = 0 := Nat.lt_one_iff.mp hk
    rw [BitVec.sub_zero, slot_eq_stackAddress]
    exact memRead_push_same h v
  · intro b hb
    have hne : b ≠ stackAddress s.sp := by
      rw [← slot_eq_stackAddress, ← BitVec.sub_zero s.sp]
      exact hb 0 Nat.one_pos
    exact (State.memRead_push h v b).trans (if_neg hne)

/-- Pushes one after another lower SP by their number, modulo 256. -/
theorem sp_foldl_push (s : State) (vs : List Byte) :
    (vs.foldl State.push s).sp = s.sp - BitVec.ofNat 8 vs.length := by
  induction vs generalizing s with
  | nil => exact (BitVec.sub_zero s.sp).symm
  | cons v vs ih =>
    rw [List.foldl_cons, ih, push_sp, List.length_cons, BitVec.ofNat_add]
    exact (sub_right_comm s.sp 1 _).trans (sub_sub s.sp _ 1)

theorem foldl_push_wf {s : State} (h : Memory.wf s.mem = true) (vs : List Byte) :
    Memory.wf (vs.foldl State.push s).mem = true := by
  induction vs generalizing s with
  | nil => exact h
  | cons v vs ih => exact ih (State.push_wf h v)

/-- 256 pushes go once round the stack page (R43(c)). -/
theorem sp_foldl_push_page (s : State) {vs : List Byte} (hvs : vs.length = 256) :
    (vs.foldl State.push s).sp = s.sp := by
  rw [sp_foldl_push, hvs]
  exact BitVec.sub_zero s.sp

/-- After 256 pushes the next byte lands in the slot of the first one (R43(c)). -/
theorem memRead_push_foldl_page {s : State} (h : Memory.wf s.mem = true) (v : Byte)
    {vs : List Byte} (hvs : vs.length = 256) :
    ((vs.foldl State.push s).push v).memRead (stackAddress s.sp) = v := by
  rw [← sp_foldl_push_page s hvs]
  exact memRead_push_same (foldl_push_wf h vs) v

/-- Settles O29: a push and the pop after it, the ends of the page, and 256 pushes round it. -/
theorem popAfterPushReturnsTheByte : Obligations.PopAfterPushReturnsTheByte := by
  unfold Obligations.PopAfterPushReturnsTheByte
  intro s v h
  have hslot : (slot s.sp).toNat = 256 + s.sp.toNat := by
    rw [slot_eq_stackAddress, toNat_stackAddress]
  have hsp : s.sp.toNat < 256 := s.sp.isLt
  refine ⟨popped_push h v, sp_afterPop_push s v, pushed_push h v, by omega, by omega,
    fun h0 => ?_, fun hff => ?_, fun vs hvs => ?_⟩
  · have hread := memRead_push_same h v
    rw [h0] at hread
    exact ⟨by rw [push_sp, h0]; rfl, hread⟩
  · exact ⟨by rw [afterPop_sp, hff]; rfl, by rw [State.popped, hff]; rfl⟩
  · rw [slot_eq_stackAddress]
    exact ⟨sp_foldl_push_page s hvs, memRead_push_foldl_page h v hvs⟩

end Sys2Proof.Proofs
end

section
/-! The addressing modes in page 0, through a pointer, and indexed (40_addressing_modes R70-R72,
R76-R78): effective addresses as numbers, and the instructions that take the rare modes. -/

namespace Sys2Proof.Proofs

open Sys2Proof Sys2Proof.Machine Sys2Proof.Stating

theorem zext16_eq_ofNat (v : Byte) : zext16 v = BitVec.ofNat 16 v.toNat :=
  (BitVec.ofNat_toNat 16 v).symm

/-- A sum of two bytes stays in page 0: its carry is dropped before it is extended (R71, R72). -/
theorem zext16_add (v d : Byte) :
    zext16 (v + d) = BitVec.ofNat 16 ((v.toNat + d.toNat) % 256) := by
  rw [zext16_eq_ofNat, BitVec.toNat_add]

theorem concat16_eq_ofNat (hi lo : Byte) :
    concat16 hi lo = BitVec.ofNat 16 (hi.toNat * 256 + lo.toNat) := by
  rw [← toNat_concat16, BitVec.ofNat_toNat, BitVec.setWidth_eq]

/-- An index added to a word carries into the high byte, modulo 2^16 (R74, R75, R78). -/
theorem toNat_add_zext16 (w : Word) (d : Byte) :
    (w + zext16 d).toNat = (w.toNat + d.toNat) % 65536 := by
  rw [BitVec.toNat_add, toNat_zext16]

/-- The page-cross flag compares page numbers (R81). -/
theorem pageCross_eq (base ea : Word) :
    pageCross base ea = if ea.toNat / 256 = base.toNat / 256 then 0 else 1 := by
  simp only [pageCross, ← BitVec.toNat_inj, toNat_hiByte]

/-- The word at a pointer in page 0 (00_scope R7). -/
theorem read16ZeroPage_eq (t : State) (p : Byte) :
    t.read16ZeroPage p =
      concat16 (t.memRead (BitVec.ofNat 16 ((p.toNat + 1) % 256)))
        (t.memRead (BitVec.ofNat 16 p.toNat)) := by
  rw [State.read16ZeroPage, zext16_add, zext16_eq_ofNat]
  rfl

/-- Only LDX and STX take ZeroPageY (R72, R82): no other mnemonic's modes contain it. -/
theorem ldx_or_stx_of_zeroPageY {i : Instr} {ll : Byte} (hwf : i.wf = true)
    (hop : i.operand = .zeroPageY ll) : i = .ldx (.zeroPageY ll) ∨ i = .stx (.zeroPageY ll) := by
  cases i with
  | ldx o => exact .inl (congrArg Instr.ldx hop)
  | stx o => exact .inr (congrArg Instr.stx hop)
  | _ => cases hop <;> cases hwf

/-- Only JMP takes Indirect (R76, R82). -/
theorem jmp_of_indirect {i : Instr} {w : Word} (hwf : i.wf = true)
    (hop : i.operand = .indirect w) : i = .jmp (.indirect w) := by
  cases i with
  | jmp o => exact congrArg Instr.jmp hop
  | _ => cases hop <;> cases hwf

/-- The operand of an Indirect jump is the pointer's two bytes, low first (R76). -/
theorem bytes_indirect_concat16 (hh ll : Byte) :
    (Operand.indirect (concat16 hh ll)).bytes = [ll, hh] := by
  rw [Operand.bytes, loByte_concat16, hiByte_concat16]

/-- The second byte of an Indirect target stands in the pointer's own page (R76). -/
theorem resolve_indirect (t : State) (ll hh : Byte) :
    t.resolve (.indirect (concat16 hh ll)) =
      ⟨concat16 (t.memRead (BitVec.ofNat 16 (hh.toNat * 256 + (ll.toNat + 1) % 256)))
        (t.memRead (BitVec.ofNat 16 (hh.toNat * 256 + ll.toNat))), 0, false⟩ := by
  rw [State.resolve, hiByte_concat16, loByte_concat16, concat16_eq_ofNat hh (ll + 1),
    concat16_eq_ofNat hh ll, BitVec.toNat_add]
  rfl

/-- Settles O6: page 0 is the sum of two bytes modulo 256, and R82 gives ZeroPageY to LDX and STX. -/
theorem zeroPageModesStayInPageZero : Obligations.ZeroPageModesStayInPageZero := by
  unfold Obligations.ZeroPageModesStayInPageZero
  intro t ll
  refine ⟨fun i hwf hop => ldx_or_stx_of_zeroPageY hwf hop, ⟨rfl, ?_⟩, ⟨rfl, ?_⟩, ⟨rfl, ?_⟩⟩
  · rw [State.resolve, zext16_eq_ofNat]
  · rw [State.resolve, zext16_add]
  · rw [State.resolve, zext16_add]

/-- Settles O8: the pointer's low byte is incremented alone, so its page stays. -/
theorem indirectWrapsWithinThePointersPage : Obligations.IndirectWrapsWithinThePointersPage := by
  unfold Obligations.IndirectWrapsWithinThePointersPage
  exact fun t ll hh =>
    ⟨fun i hwf hop => jmp_of_indirect hwf hop, bytes_indirect_concat16 hh ll,
      resolve_indirect t ll hh⟩

/-- Settles O9: both modes read the same word of page 0; X moves the pointer, Y the word. -/
theorem zeroPagePointersWrapAndIndexY : Obligations.ZeroPagePointersWrapAndIndexY := by
  unfold Obligations.ZeroPagePointersWrapAndIndexY
  intro t ll pointer
  have hpointer : ∀ p : Byte, t.read16ZeroPage p = pointer p.toNat := read16ZeroPage_eq t
  refine ⟨⟨rfl, ?_⟩, rfl, ?_⟩
  · rw [State.resolve, hpointer, BitVec.toNat_add]
  · rw [State.resolve, hpointer]
    exact ⟨toNat_add_zext16 _ t.y, rfl, pageCross_eq _ _⟩

end Sys2Proof.Proofs
end

section
/-! Loads and transfers (41_load_store_transfer R100-R102, R106-R111): SetNZ and the rows of a
mnemonic in the form in which the statements give them. -/

namespace Sys2Proof.Proofs

open Sys2Proof Sys2Proof.Machine Sys2Proof.Stating

/-- SetNZ leaves N and Z of the value and the other six bits of SR (00_scope R9). -/
theorem bits_setNZ (s : State) (v : Byte) : Bits (s.setNZ v).sr (nz s v) := by
  intro f
  have hflag := State.flag_setNZ s v f
  cases f with
  | zero => exact hflag.trans (Bool.beq_eq_decide_eq v 0)
  | _ => exact hflag

/-- The rows of a mnemonic from its opcodes: the encoder emits the operand bytes after the opcode
(30_encoding R51, R54). -/
theorem rows_of_opcodes {mk : Operand → Instr}
    {rows : Byte → Word → List (Operand × Byte × Nat × Bool)}
    (hop : ∀ o, (mk o).operand = o)
    (hrow : ∀ b w,
      (rows b w).map (fun r =>
        ((mk r.1).opcode?, baseCycles (mk r.1), countsPageCross (mk r.1))) =
      (rows b w).map (fun r => (some r.2.1, r.2.2)))
    (hmode : ∀ o, (mk o).wf = true → ∃ b w, o ∈ (rows b w).map Prod.fst) : Rows mk rows := by
  refine ⟨fun b w r hr => ?_, hmode⟩
  have hr' := List.map_inj_left.mp (hrow b w) r hr
  simp only [Prod.ext_iff] at hr'
  obtain ⟨hcode, hcycles, hcross⟩ := hr'
  exact ⟨by rw [encode_of_opcode hcode, hop], hcycles, hcross⟩

/-- `readRows` lists the eight modes of the read-class mnemonics (40_addressing_modes R82). -/
theorem mem_readRows {o : Operand} (ho : o.isRead = true)
    (imm zp zpX abs absX absY indX indY : Byte) :
    ∃ b w, o ∈ (readRows imm zp zpX abs absX absY indX indY b w).map Prod.fst := by
  cases o with
  | immediate b | zeroPage b | zeroPageX b | indirectX b | indirectY b =>
    exact ⟨b, 0, by simp [readRows]⟩
  | absolute w | absoluteX w | absoluteY w => exact ⟨0, w, by simp [readRows]⟩
  | _ => cases ho

theorem rows_lda : Rows .lda (readRows 0xA9 0xA5 0xB5 0xAD 0xBD 0xB9 0xA1 0xB1) :=
  rows_of_opcodes (fun _ => rfl) (fun _ _ => rfl) fun _ hwf => mem_readRows hwf ..

theorem rows_ldx : Rows .ldx (fun b w => [(.immediate b, 0xA2, 2, false),
    (.zeroPage b, 0xA6, 3, false), (.absolute w, 0xAE, 4, false), (.zeroPageY b, 0xB6, 4, false),
    (.absoluteY w, 0xBE, 4, true)]) := by
  refine rows_of_opcodes (fun _ => rfl) (fun _ _ => rfl) fun o hwf => ?_
  cases o with
  | immediate b | zeroPage b | zeroPageY b => exact ⟨b, 0, by simp⟩
  | absolute w | absoluteY w => exact ⟨0, w, by simp⟩
  | _ => cases hwf

theorem rows_ldy : Rows .ldy (fun b w => [(.immediate b, 0xA0, 2, false),
    (.zeroPage b, 0xA4, 3, false), (.absolute w, 0xAC, 4, false), (.zeroPageX b, 0xB4, 4, false),
    (.absoluteX w, 0xBC, 4, true)]) := by
  refine rows_of_opcodes (fun _ => rfl) (fun _ _ => rfl) fun o hwf => ?_
  cases o with
  | immediate b | zeroPage b | zeroPageX b => exact ⟨b, 0, by simp⟩
  | absolute w | absoluteX w => exact ⟨0, w, by simp⟩
  | _ => cases hwf

/-- Settles O12: after the register write SetNZ leaves the bits `bits_setNZ` names; every other field
of the next state is that of `after` by computation. -/
theorem loadsTakeTheOperandAndSetNZ : Obligations.LoadsTakeTheOperandAndSetNZ := by
  unfold Obligations.LoadsTakeTheOperandAndSetNZ
  refine ⟨⟨fun s o => ?_, rows_lda⟩, ⟨fun s o => ?_, rows_ldx⟩, fun s o => ?_, rows_ldy⟩
  · exact ⟨_, bits_setNZ s (valueAt s (.lda o)), rfl⟩
  · exact ⟨_, bits_setNZ s (valueAt s (.ldx o)), rfl⟩
  · exact ⟨_, bits_setNZ s (valueAt s (.ldy o)), rfl⟩

/-- Settles O14: five transfers end in SetNZ of the register they copy; TXS leaves SR. -/
theorem transfersCopyAndAllButTxsSetNZ : Obligations.TransfersCopyAndAllButTxsSetNZ := by
  unfold Obligations.TransfersCopyAndAllButTxsSetNZ
  refine ⟨⟨rfl, fun s => ?_⟩, ⟨rfl, fun s => ?_⟩, ⟨rfl, fun s => ?_⟩, ⟨rfl, fun s => ?_⟩,
    ⟨rfl, fun s => ?_⟩, rfl, fun _ => rfl⟩
  · exact ⟨_, bits_setNZ s s.a, rfl⟩
  · exact ⟨_, bits_setNZ s s.x, rfl⟩
  · exact ⟨_, bits_setNZ s s.a, rfl⟩
  · exact ⟨_, bits_setNZ s s.y, rfl⟩
  · exact ⟨_, bits_setNZ s s.sp, rfl⟩

end Sys2Proof.Proofs
end

section
/-! The binary adder (42_arithmetic R112): its carry and its overflow bit, in the numbers and the bits
in which the statements give them. -/

namespace Sys2Proof.Proofs

open Sys2Proof Sys2Proof.Machine Sys2Proof.Stating

/-- The sum of two bytes and a carry fits in nine bits (42_arithmetic R112). -/
theorem sum_lt_512 (a m : Byte) (c : Bool) : a.toNat + m.toNat + c.toNat < 512 := by
  have ha := a.isLt
  have hm := m.isLt
  have hc := c.toNat_le
  omega

/-- The top bit of a nine-bit number is set exactly when the number leaves the byte. -/
theorem testBit_eight_of_lt_512 {n : Nat} (hn : n < 512) : n.testBit 8 = decide (256 ≤ n) := by
  rw [Nat.testBit_eq_decide_div_mod_eq]
  exact decide_eq_decide.mpr (by omega)

/-- The overflow mask `~(a ^ m) & (a ^ r)` at bit 7: `a` and `m` have one sign and `r` the other. -/
theorem overflowMask_bit7 (a m r : Byte) :
    (~~~(a ^^^ m) &&& (a ^^^ r)).getLsbD 7 =
      (decide (a.getLsbD 7 = m.getLsbD 7) && decide (r.getLsbD 7 ≠ a.getLsbD 7)) := by
  simp only [BitVec.getLsbD_and, BitVec.getLsbD_not, BitVec.getLsbD_xor]
  cases a.getLsbD 7 <;> cases m.getLsbD 7 <;> cases r.getLsbD 7 <;> rfl

theorem addBinary_c (a m : Byte) (c : Bool) :
    (addBinary a m c).c = decide (256 ≤ a.toNat + m.toNat + c.toNat) :=
  testBit_eight_of_lt_512 (sum_lt_512 a m c)

/-- Settles O15: C is bit 8 of a sum below 512, V the overflow mask's bit 7; the result, N and Z are
`addBinary`'s own. -/
theorem binaryAddIsTheNineBitSum : Obligations.BinaryAddIsTheNineBitSum := by
  unfold Obligations.BinaryAddIsTheNineBitSum
  intro a m c sum r
  exact ⟨BitVec.toNat_ofNat sum 8, addBinary_c a m c, overflowMask_bit7 a m r.res, rfl,
    Bool.beq_eq_decide_eq r.res 0⟩

end Sys2Proof.Proofs
end

section
/-! The logic instructions (43_logic R118-R121): AND, ORA and EOR write A and end in SetNZ of what
they wrote; BIT writes Z, N and V alone. -/

namespace Sys2Proof.Proofs

open Sys2Proof Sys2Proof.Machine Sys2Proof.Stating

theorem rows_and : Rows .and (readRows 0x29 0x25 0x35 0x2D 0x3D 0x39 0x21 0x31) :=
  rows_of_opcodes (fun _ => rfl) (fun _ _ => rfl) fun _ hwf => mem_readRows hwf ..

theorem rows_ora : Rows .ora (readRows 0x09 0x05 0x15 0x0D 0x1D 0x19 0x01 0x11) :=
  rows_of_opcodes (fun _ => rfl) (fun _ _ => rfl) fun _ hwf => mem_readRows hwf ..

theorem rows_eor : Rows .eor (readRows 0x49 0x45 0x55 0x4D 0x5D 0x59 0x41 0x51) :=
  rows_of_opcodes (fun _ => rfl) (fun _ _ => rfl) fun _ hwf => mem_readRows hwf ..

/-- A read-class instruction that combines its operand into A and ends in SetNZ of the new A is a
logic instruction of the statements (R118-R120). -/
theorem combines_of_readInstr {mk : Operand → Instr} {f : Byte → Byte → Byte}
    (h : ∀ s o, exec (mk o) s =
      s.readInstr (mk o) fun t m => (t.setA (f t.a m)).setNZ (f t.a m)) : Combines mk f :=
  fun s o => ⟨_, bits_setNZ s (f s.a (valueAt s (mk o))), h s o⟩

/-- Settles O20: each of the three ends in SetNZ of the A it writes, which `combines_of_readInstr`
puts into the form of the statement. -/
theorem logicCombinesIntoAAndSetsNZ : Obligations.LogicCombinesIntoAAndSetsNZ := by
  unfold Obligations.LogicCombinesIntoAAndSetsNZ
  refine ⟨⟨?_, rows_and⟩, ⟨?_, rows_ora⟩, ?_, rows_eor⟩
  · exact combines_of_readInstr fun _ _ => rfl
  · exact combines_of_readInstr fun _ _ => rfl
  · exact combines_of_readInstr fun _ _ => rfl

theorem rows_bit :
    Rows .bit (fun b w => [(.zeroPage b, 0x24, 3, false), (.absolute w, 0x2C, 4, false)]) := by
  refine rows_of_opcodes (fun _ => rfl) (fun _ _ => rfl) fun o hwf => ?_
  cases o with
  | zeroPage b => exact ⟨b, 0, by simp⟩
  | absolute w => exact ⟨0, w, by simp⟩
  | _ => cases hwf

/-- BIT leaves Z of `A & m`, N and V of `m`, and the other five bits of SR (R121). -/
theorem bits_bitTest (s : State) (m : Byte) :
    Bits (s.bitTest m).sr (withBit (withBit (withBit s.flag .zero (decide (s.a &&& m = 0)))
      .negative (m.getLsbD 7)) .overflow (m.getLsbD 6)) := by
  intro f
  have hflag := State.flag_bitTest s m f
  rw [Bool.beq_eq_decide_eq] at hflag
  exact hflag

/-- Settles O21: BIT changes SR alone, and `bits_bitTest` names its bits. -/
theorem bitTestsWithoutWritingA : Obligations.BitTestsWithoutWritingA := by
  unfold Obligations.BitTestsWithoutWritingA
  exact ⟨rows_bit, fun s o => ⟨_, bits_bitTest s (valueAt s (.bit o)), rfl⟩⟩

end Sys2Proof.Proofs
end

section
/-! The index steps (45_inc_dec R129-R132): X or Y one up or down as a byte, and SetNZ of the byte
written. -/

namespace Sys2Proof.Proofs

open Sys2Proof Sys2Proof.Machine Sys2Proof.Stating

/-- A one-byte instruction of two cycles that writes a register and leaves the SR of SetNZ has the form
of the statements (00_scope R9). -/
theorem setsRegister_of_exec_eq {i : Instr} {op : Byte} {set : State → Byte → State}
    {v : State → Byte} (hencode : encode i = [op])
    (hexec : ∀ s, exec i s = .next { set (after s i 2) (v s) with sr := (s.setNZ (v s)).sr }) :
    SetsRegister i op set v :=
  ⟨hencode, fun s => ⟨(s.setNZ (v s)).sr, bits_setNZ s (v s), hexec s⟩⟩

/-- Settles O25: each of the four computes to its register write and SetNZ, which
`setsRegister_of_exec_eq` puts into the form of the statement. -/
theorem indexStepsWrapAndSetNZ : Obligations.IndexStepsWrapAndSetNZ := by
  unfold Obligations.IndexStepsWrapAndSetNZ
  refine ⟨?inx, ?iny, ?dex, ?dey⟩
  case inx => exact setsRegister_of_exec_eq rfl fun _ => rfl
  case iny => exact setsRegister_of_exec_eq rfl fun _ => rfl
  case dex => exact setsRegister_of_exec_eq rfl fun _ => rfl
  case dey => exact setsRegister_of_exec_eq rfl fun _ => rfl

end Sys2Proof.Proofs
end

section
/-! The pulls (47_stack R138, R140): the byte SP selects once incremented, into A with SetNZ, or into
SR. -/

namespace Sys2Proof.Proofs

open Sys2Proof Sys2Proof.Machine Sys2Proof.Stating

/-- The byte a pop returns stands at the slot of the incremented index (00_scope R8). -/
theorem popped_eq_read_slot (s : State) :
    s.popped = Memory.read s.mem (slot (s.sp + 1)).toNat := by
  rw [slot_eq_stackAddress]
  rfl

/-- PLA writes A, SP, the SR of SetNZ, PC and CYC (R138). -/
theorem exec_pla (s : State) :
    exec .pla s =
      .next { after s .pla 4 with a := s.popped, sp := s.sp + 1, sr := (s.setNZ s.popped).sr } :=
  rfl

/-- PLP writes SR, SP, PC and CYC (R140). -/
theorem exec_plp (s : State) :
    exec .plp s = .next { after s .plp 4 with sr := s.popped, sp := s.sp + 1 } :=
  rfl

/-- Settles O28: both take the popped byte, which `popped_eq_read_slot` finds at its slot; PLA ends in
SetNZ of it, PLP makes it SR. -/
theorem pullsIncrementThenLoad : Obligations.PullsIncrementThenLoad := by
  unfold Obligations.PullsIncrementThenLoad
  refine ⟨⟨rfl, fun s => ?pla⟩, rfl, fun s => ?plp⟩
  case pla =>
    rw [← popped_eq_read_slot]
    exact ⟨_, bits_setNZ s s.popped, exec_pla s⟩
  case plp =>
    rw [← popped_eq_read_slot]
    exact exec_plp s

end Sys2Proof.Proofs
end

section
/-! Jumps, the subroutine return and the branches (48_control_flow R141, R143-R152): each writes PC and
CYC, RTS SP too. -/

namespace Sys2Proof.Proofs

open Sys2Proof Sys2Proof.Machine Sys2Proof.Stating

/-- Two increments of the stack index are one addition of 2, across the end of the page (00_scope R8). -/
theorem sp_add_one_add_one (sp : Byte) : sp + 1 + 1 = sp + 2 :=
  BitVec.add_assoc sp 1#8 1#8

/-- The word two pops return: its low byte at the first slot above SP, its high byte at the second
(R143). -/
theorem poppedWord_eq_read_slot (s : State) :
    s.poppedWord =
      concat16 (Memory.read s.mem (slot (s.sp + 2)).toNat)
        (Memory.read s.mem (slot (s.sp + 1)).toNat) := by
  rw [State.poppedWord, popped_eq_read_slot, popped_eq_read_slot, afterPop_sp, sp_add_one_add_one]
  rfl

/-- RTS writes PC, SP and CYC (R143). -/
theorem exec_rts (s : State) :
    exec .rts s =
      .next { s with pc := s.poppedWord + 1, cyc := s.cyc + 6, sp := s.sp + 1 + 1 } :=
  rfl

/-- Settles O32: the popped word is found at its two slots, and the two increments of SP add 2. -/
theorem rtsPopsAndAddsOne : Obligations.RtsPopsAndAddsOne := by
  unfold Obligations.RtsPopsAndAddsOne
  refine ⟨rfl, fun s => ?_⟩
  rw [exec_rts, poppedWord_eq_read_slot, sp_add_one_add_one]

theorem rows_jmp :
    Rows .jmp (fun _ w => [(.absolute w, 0x4C, 3, false), (.indirect w, 0x6C, 5, false)]) := by
  refine rows_of_opcodes (fun _ => rfl) (fun _ _ => rfl) fun o hwf => ?_
  cases o with
  | absolute w | indirect w => exact ⟨0, w, by simp⟩
  | _ => cases hwf

/-- JMP writes PC and CYC; no page cross is counted, so its cycles are the base count (R141). -/
theorem exec_jmp (s : State) (o : Operand) :
    exec (.jmp o) s =
      .next { s with pc := eaAt s (.jmp o), cyc := s.cyc + baseCycles (.jmp o) } :=
  rfl

/-- Settles O30: the two modes are `rows_jmp`, the next state is `exec_jmp`. -/
theorem jmpGoesToItsEffectiveAddress : Obligations.JmpGoesToItsEffectiveAddress := by
  unfold Obligations.JmpGoesToItsEffectiveAddress
  exact ⟨rows_jmp, exec_jmp⟩

section
variable {i : Instr} {off : Byte} (hop : i.operand = .relative off) (hbase : baseCycles i = 2)
include hop

/-- A branch is two bytes long: its opcode and its offset (30_encoding R51). -/
theorem length_of_relative : i.length = 2 := by
  rw [Instr.length, hop]
  rfl

/-- The target is the address of the instruction after the branch plus the signed offset (R144). -/
theorem ea_of_relative (t : State) : (t.resolve i.operand).ea = t.pc + sext16 off := by
  rw [hop, State.resolve]

/-- The Relative mode has no additional cycles, so only the base count and `extraOp` remain
(70_reset R235). -/
theorem complete_of_relative (t u : State) (extra : Nat) :
    t.complete i (u.resolve i.operand) extra =
      .next (t.setCyc (t.cyc + (baseCycles i + extra))) := by
  rw [State.complete_eq, stepCycles, hop, State.resolve, ite_self, Nat.add_zero]

include hbase

/-- A branch not taken goes to the instruction after it in 2 cycles (R144). -/
theorem branchInstr_not_taken (s : State) :
    s.branchInstr i false = .next { s with pc := s.pc + 2, cyc := s.cyc + 2 } := by
  rw [State.branchInstr, complete_of_relative hop, State.afterFetch_frame, length_of_relative hop,
    hbase]
  rfl

/-- A branch taken goes to its target in 3 cycles, or 4 when the target is on another page (R144). -/
theorem branchInstr_taken (s : State) :
    s.branchInstr i true =
      .next { s with
        pc := s.pc + 2 + sext16 off
        cyc := s.cyc + (3 + pageCross (s.pc + 2) (s.pc + 2 + sext16 off)) } := by
  have hcycles (n : Nat) : 2 + (1 + n) = 3 + n := (Nat.add_assoc 2 1 n).symm
  rw [State.branchInstr, complete_of_relative hop, State.afterFetch_frame, length_of_relative hop,
    hbase, ea_of_relative hop, if_pos rfl, if_pos rfl, hcycles]
  rfl

end

/-- The cycles of a taken branch by page numbers (R144). -/
theorem takenCycles_eq (next target : Word) :
    3 + pageCross next target = if target.toNat / 256 = next.toNat / 256 then 3 else 4 := by
  rw [pageCross_eq]
  split <;> rfl

/-- An instruction that runs `Branch(cond)` on a Relative operand with base count 2 is a branch of the
statements: the two values of the condition are the two cases (R144). -/
theorem branches_of_branchInstr {mk : Byte → Instr} {op : Byte} {cond : State → Bool}
    (hencode : ∀ off, encode (mk off) = [op, off])
    (hop : ∀ off, (mk off).operand = .relative off) (hbase : ∀ off, baseCycles (mk off) = 2)
    (hexec : ∀ s off, exec (mk off) s = s.branchInstr (mk off) (cond s)) :
    Branches mk op cond := by
  refine fun s off => ⟨hencode off, ?_⟩
  rw [hexec]
  cases cond s with
  | false => exact branchInstr_not_taken (hop off) (hbase off) s
  | true =>
    rw [branchInstr_taken (hop off) (hbase off), takenCycles_eq]
    rfl

/-- Settles O34: each mnemonic runs `Branch` on its own bit of SR, which `branches_of_branchInstr` puts
into the form of the statement. -/
theorem branchesTestOneBit : Obligations.BranchesTestOneBit := by
  unfold Obligations.BranchesTestOneBit
  refine ⟨?bcc, ?bcs, ?beq, ?bne, ?bmi, ?bpl, ?bvc, ?bvs⟩ <;>
    exact branches_of_branchInstr (fun _ => rfl) (fun _ => rfl) (fun _ => rfl) fun _ _ => rfl

end Sys2Proof.Proofs
end

section
/-! The flag instructions and NOP (49_flags_system R153-R159, R162): two Implied cycles around one
`setFlag`, or around nothing. -/

namespace Sys2Proof.Proofs

open Sys2Proof Sys2Proof.Machine Sys2Proof.Stating

/-- Setting a flag leaves its bit at the value and the other seven bits of SR. -/
theorem bits_setFlag (s : State) (f : StatusFlag) (b : Bool) :
    Bits (s.setFlag f b).sr (withBit s.flag f b) :=
  fun g => State.flag_setFlag s f g b

/-- The Implied mode has no additional cycles, so only the base count is added (70_reset R235). -/
theorem impliedInstr_eq_setCyc (s : State) (i : Instr) (g : State → State) :
    s.impliedInstr i g =
      .next ((g (s.afterFetch i)).setCyc ((g (s.afterFetch i)).cyc + baseCycles i)) := by
  rw [State.impliedInstr_eq, State.complete_eq, stepCycles, ite_self, Nat.add_zero, Nat.add_zero]

/-- A one-byte instruction of two cycles that sets one flag is a flag instruction of the statements
(R153-R159). -/
theorem setsFlag_of_impliedInstr {i : Instr} {op : Byte} {f : StatusFlag} {b : Bool}
    (hencode : encode i = [op]) (hbase : baseCycles i = 2)
    (hexec : ∀ s, exec i s = s.impliedInstr i fun t => t.setFlag f b) : SetsFlag i op f b := by
  refine ⟨hencode, fun s => ⟨(s.setFlag f b).sr, bits_setFlag s f b, ?_⟩⟩
  rw [hexec, impliedInstr_eq_setCyc, hbase, State.setFlag_frame, State.afterFetch_frame]
  rfl

/-- NOP leaves the state its fetch made, but for its two cycles (R162). -/
theorem exec_nop (s : State) :
    exec .nop s = .next { s with pc := s.pc + 1, cyc := s.cyc + 2 } :=
  impliedInstr_eq_setCyc s .nop fun t => t

/-- Settles O35: each of the seven runs `setFlag` on its own bit of SR, which `setsFlag_of_impliedInstr`
puts into the form of the statement; NOP is `exec_nop`. -/
theorem flagInstructionsWriteOneBitAndNopNone :
    Obligations.FlagInstructionsWriteOneBitAndNopNone := by
  unfold Obligations.FlagInstructionsWriteOneBitAndNopNone
  refine ⟨?clc, ?sec, ?cli, ?sei, ?cld, ?sed, ?clv, rfl, exec_nop⟩ <;>
    exact setsFlag_of_impliedInstr rfl rfl fun _ => rfl

end Sys2Proof.Proofs
end

section
/-! The encoder and the decoder against each other (30_encoding R51-R57): each entry of the instruction
table, an instruction at a time, and the bytes the table leaves out. -/

namespace Sys2Proof.Proofs

open Sys2Proof Sys2Proof.Machine Sys2Proof.Stating

section
variable {i : Instr} {op : Byte} (hop : i.opcode? = some op) (rest : List Byte)
include hop

theorem decode_encode_of_one (hb : i.operand.bytes = []) (he : entryOf op = .one i) :
    decode (encode i ++ rest) = .ok (i, rest) := by
  simp [encode_of_opcode hop, hb, decode, instrOf, he, Entry.operandCount, Entry.build]

theorem decode_encode_of_two {b : Byte} {f : Byte → Instr} (hb : i.operand.bytes = [b])
    (he : entryOf op = .two f) (hf : f b = i) : decode (encode i ++ rest) = .ok (i, rest) := by
  simp [encode_of_opcode hop, hb, decode, instrOf, he, Entry.operandCount, Entry.build, hf]

/-- The operand word is emitted and read low byte first (30_encoding R51). -/
theorem decode_encode_of_three {w : Word} {f : Word → Instr}
    (hb : i.operand.bytes = [loByte w, hiByte w]) (he : entryOf op = .three f) (hf : f w = i) :
    decode (encode i ++ rest) = .ok (i, rest) := by
  simp [encode_of_opcode hop, hb, decode, instrOf, he, Entry.operandCount, Entry.build, hf]

end

/-- The bytes without an entry are the listed invalid opcodes, in order (30_encoding R53, R56). -/
theorem unmapped_eq_invalidOpcodes :
    (List.range 256).filter (fun n => (instructionTable.lookup n).isNone) =
      invalidOpcodes.map BitVec.toNat := by
  decide

theorem lookup_eq_none_iff (op : Byte) :
    instructionTable.lookup op.toNat = none ↔ invalidOpcodes.contains op = true := by
  have hmem : op.toNat ∈ (List.range 256).filter (fun n => (instructionTable.lookup n).isNone) ↔
      instructionTable.lookup op.toNat = none := by
    simp [op.isLt]
  rw [← hmem, unmapped_eq_invalidOpcodes, List.mem_map_of_injective BitVec.toNat_injective,
    List.contains_iff_mem]

/-- Settles O4: the counts compute, and `lookup_eq_none_iff` compares the two lists. -/
theorem unmappedBytesAreTheInvalidOnes : Obligations.UnmappedBytesAreTheInvalidOnes := by
  unfold Obligations.UnmappedBytesAreTheInvalidOnes
  exact ⟨rfl, rfl, lookup_eq_none_iff⟩

theorem entryOf_of_contains {op : Byte} (h : invalidOpcodes.contains op = true) :
    entryOf op = .one (.invalid op) := by
  rw [entryOf, (lookup_eq_none_iff op).mpr h, Option.getD_none]

/-- An invalid opcode is its own encoding (30_encoding R56). -/
theorem opcode_invalid {op : Byte} (h : invalidOpcodes.contains op = true) :
    (Instr.invalid op).opcode? = some op :=
  if_pos h

/-- Decoding the encoding of a well-formed instruction gives it back, mnemonic by mnemonic, over the
modes that R82 gives each: the table's entry for its opcode is its own (30_encoding R53). -/
theorem decode_encode {i : Instr} (rest : List Byte) (h : i.wf = true) :
    decode (encode i ++ rest) = .ok (i, rest) := by
  cases i with
  | lda o | adc o | sbc o | and o | ora o | eor o | cmp o =>
    cases o with
    | immediate b | zeroPage b | zeroPageX b | indirectX b | indirectY b =>
      exact decode_encode_of_two rfl rest rfl rfl rfl
    | absolute w | absoluteX w | absoluteY w => exact decode_encode_of_three rfl rest rfl rfl rfl
    | _ => cases h
  | sta o =>
    cases o with
    | zeroPage b | zeroPageX b | indirectX b | indirectY b =>
      exact decode_encode_of_two rfl rest rfl rfl rfl
    | absolute w | absoluteX w | absoluteY w => exact decode_encode_of_three rfl rest rfl rfl rfl
    | _ => cases h
  | asl o | lsr o | rol o | ror o =>
    cases o with
    | accumulator => exact decode_encode_of_one rfl rest rfl rfl
    | zeroPage b | zeroPageX b => exact decode_encode_of_two rfl rest rfl rfl rfl
    | absolute w | absoluteX w => exact decode_encode_of_three rfl rest rfl rfl rfl
    | _ => cases h
  | inc o | dec o =>
    cases o with
    | zeroPage b | zeroPageX b => exact decode_encode_of_two rfl rest rfl rfl rfl
    | absolute w | absoluteX w => exact decode_encode_of_three rfl rest rfl rfl rfl
    | _ => cases h
  | ldx o =>
    cases o with
    | immediate b | zeroPage b | zeroPageY b => exact decode_encode_of_two rfl rest rfl rfl rfl
    | absolute w | absoluteY w => exact decode_encode_of_three rfl rest rfl rfl rfl
    | _ => cases h
  | ldy o =>
    cases o with
    | immediate b | zeroPage b | zeroPageX b => exact decode_encode_of_two rfl rest rfl rfl rfl
    | absolute w | absoluteX w => exact decode_encode_of_three rfl rest rfl rfl rfl
    | _ => cases h
  | stx o =>
    cases o with
    | zeroPage b | zeroPageY b => exact decode_encode_of_two rfl rest rfl rfl rfl
    | absolute w => exact decode_encode_of_three rfl rest rfl rfl rfl
    | _ => cases h
  | sty o =>
    cases o with
    | zeroPage b | zeroPageX b => exact decode_encode_of_two rfl rest rfl rfl rfl
    | absolute w => exact decode_encode_of_three rfl rest rfl rfl rfl
    | _ => cases h
  | cpx o | cpy o =>
    cases o with
    | immediate b | zeroPage b => exact decode_encode_of_two rfl rest rfl rfl rfl
    | absolute w => exact decode_encode_of_three rfl rest rfl rfl rfl
    | _ => cases h
  | bit o =>
    cases o with
    | zeroPage b => exact decode_encode_of_two rfl rest rfl rfl rfl
    | absolute w => exact decode_encode_of_three rfl rest rfl rfl rfl
    | _ => cases h
  | jmp o =>
    cases o with
    | absolute w | indirect w => exact decode_encode_of_three rfl rest rfl rfl rfl
    | _ => cases h
  | jsr w => exact decode_encode_of_three rfl rest rfl rfl rfl
  | bcc b | bcs b | beq b | bne b | bmi b | bpl b | bvc b | bvs b =>
    exact decode_encode_of_two rfl rest rfl rfl rfl
  | invalid op =>
    exact decode_encode_of_one (opcode_invalid h) rest rfl (entryOf_of_contains h)
  | _ => exact decode_encode_of_one rfl rest rfl rfl

/-- Settles O1, by the mnemonics of `decode_encode`. -/
theorem decodeOfEncodeIsTheInstruction : Obligations.DecodeOfEncodeIsTheInstruction := by
  unfold Obligations.DecodeOfEncodeIsTheInstruction
  exact fun i rest h => decode_encode rest h

theorem decode_of_eq_encode_append {bs rest : List Byte} {i : Instr} (hwf : i.wf = true)
    (hbs : bs = encode i ++ rest) : decode bs = .ok (i, rest) := by
  rw [hbs, decode_encode rest hwf]

/-- Settles O3: each word computes to the encoding of its instruction and what follows it. -/
theorem wordsOfEveryFamilyDecode : Obligations.WordsOfEveryFamilyDecode := by
  unfold Obligations.WordsOfEveryFamilyDecode
  refine ⟨?lda, ?sta, ?adc, ?bit, ?asl, ?dec, ?cmp, ?plp, ?jmp, ?jsr, ?bne, ?brk, ?invalid⟩ <;>
    exact decode_of_eq_encode_append rfl rfl

/-- The operand bytes an entry consumes of the two that follow its opcode. -/
def entryBytes (b1 b2 : Byte) : Entry → List Byte
  | .one _ => []
  | .two _ => [b1]
  | .three _ => [loByte (concat16 b2 b1), hiByte (concat16 b2 b1)]

/-- An entry consumes as many bytes as it counts (30_encoding R57). -/
theorem entryBytes_eq_take (l : List Byte) (e : Entry) (h : e.operandCount ≤ l.length) :
    entryBytes (l.getD 0 0) (l.getD 1 0) e = l.take e.operandCount := by
  cases e with
  | one i => rfl
  | two f =>
    match l, h with
    | b1 :: l, _ => rfl
  | three f =>
    match l, h with
    | b1 :: b2 :: l, _ =>
      change [loByte (concat16 b2 b1), hiByte (concat16 b2 b1)] = [b1, b2]
      rw [loByte_concat16, hiByte_concat16]

/-- What an entry of the table builds is well-formed and encodes as the entry's opcode and the bytes it
consumes: entry by entry (30_encoding R53). -/
theorem table_encodes (b1 b2 : Byte) :
    instructionTable.map (fun p => ((p.2.build b1 b2).wf, encode (p.2.build b1 b2))) =
      instructionTable.map (fun p => (true, BitVec.ofNat 8 p.1 :: entryBytes b1 b2 p.2)) := by
  simp only [instructionTable, List.map_append]
  rfl

theorem mem_of_lookup_eq_some {α β : Type} [BEq α] [LawfulBEq α] {l : List (α × β)} {a : α} {b : β}
    (h : l.lookup a = some b) : (a, b) ∈ l := by
  obtain ⟨l₁, l₂, hl, -⟩ := List.lookup_eq_some_iff.mp h
  rw [hl]
  exact List.mem_append_cons_self

/-- The same for every byte, mapped or invalid (30_encoding R55, R56). -/
theorem instrOf_encodes (op b1 b2 : Byte) :
    (instrOf op b1 b2).wf = true ∧
      encode (instrOf op b1 b2) = op :: entryBytes b1 b2 (entryOf op) := by
  cases hl : instructionTable.lookup op.toNat with
  | none =>
    have hc := (lookup_eq_none_iff op).mp hl
    rw [instrOf, entryOf_of_contains hc]
    exact ⟨hc, encode_of_opcode (opcode_invalid hc)⟩
  | some e =>
    have hrow := List.map_inj_left.mp (table_encodes b1 b2) _ (mem_of_lookup_eq_some hl)
    rw [Prod.mk.injEq, BitVec.ofNat_toNat, BitVec.setWidth_eq] at hrow
    rw [instrOf, entryOf, hl]
    exact hrow

/-- Settles O2: the entry of the first byte consumes the bytes its count says, and what it builds
encodes as them. -/
theorem encodeOfDecodeIsTheBytes : Obligations.EncodeOfDecodeIsTheBytes := by
  unfold Obligations.EncodeOfDecodeIsTheBytes
  intro bs rest i h
  cases bs with
  | nil => cases h
  | cons op l =>
    rw [decode] at h
    split at h
    case isTrue => cases h
    case isFalse hlen =>
      cases h
      obtain ⟨hwf, henc⟩ := instrOf_encodes op (l.getD 0 0) (l.getD 1 0)
      rw [entryBytes_eq_take l _ (Nat.le_of_not_lt hlen)] at henc
      refine ⟨hwf, ?_⟩
      rw [henc, List.cons_append, List.take_append_drop]

end Sys2Proof.Proofs
end

section
/-! One step of the machine (30_encoding R55, 60_exceptions R201, R215): what a step answers by its
script, before and after the first reset, and with a fault recorded. -/

namespace Sys2Proof.Proofs

open Sys2Proof Sys2Proof.Machine Sys2Proof.Stating

/-- Every instruction has a next state (70_reset R239). -/
theorem exec_completes (i : Instr) (s : State) : ∃ t, exec i s = .next t := by
  cases i <;> exact ⟨_, rfl⟩

theorem haltedBy_of_skip {s : State} (h : s.params.onInvalid = .skip) : s.haltedBy = none := by
  rw [State.haltedBy, h]

theorem haltedBy_of_fatal {s : State} (h : s.params.onInvalid = .fatal) :
    s.haltedBy = s.faults.head? := by
  rw [State.haltedBy, h]

/-- Nothing stops an enabled core (60_exceptions R201). -/
theorem haltedBy_of_enabled {s : State} (h : Enabled s) : s.haltedBy = none := by
  obtain ⟨-, hfaults | hskip⟩ := h
  · cases hpolicy : s.params.onInvalid with
    | fatal => rw [haltedBy_of_fatal hpolicy, hfaults, List.head?_nil]
    | skip => exact haltedBy_of_skip hpolicy
  · exact haltedBy_of_skip hskip

theorem fetchExecute_of_not_reset {s : State} (h : s.resetDone = false) :
    fetchExecute s = .refused .notReset := by
  simp [fetchExecute, h]

theorem fetchExecute_of_haltedBy {s : State} {f : InvalidOpcode} (hr : s.resetDone = true)
    (h : s.haltedBy = some f) : fetchExecute s = .fault (.invalidOpcode f.op f.addr) := by
  simp [fetchExecute, hr, h]

theorem fetchExecute_of_not_halted {s : State} (hr : s.resetDone = true)
    (h : s.haltedBy = none) : fetchExecute s = exec s.fetchInstr s := by
  simp [fetchExecute, hr, h]

/-- An enabled core runs the instruction at PC (30_encoding R55). -/
theorem fetchExecute_of_enabled {s : State} (h : Enabled s) :
    fetchExecute s = exec s.fetchInstr s :=
  fetchExecute_of_not_halted h.1 (haltedBy_of_enabled h)

theorem enabled_setScript {s : State} (h : Enabled s) (calls : List HostAction) :
    Enabled (s.setScript calls) :=
  h

/-- After a reset every call of the host but `fetch_execute_next()` is made (60_exceptions R215). -/
theorem hostMove_completes {s : State} (h : Enabled s) (c : HostAction) :
    ∃ t, hostMove c s = .next t := by
  cases c with
  | fetchExecute =>
    rw [hostMove, fetchExecute_of_enabled h]
    exact exec_completes s.fetchInstr s
  | irq | nmi => exact ⟨_, if_pos h.1⟩
  | reset | memWrite addr v => exact ⟨_, rfl⟩

/-- Settles O50: `exec_completes`, and an enabled core makes the host's call or runs an instruction. -/
theorem everyInstructionCompletes : Obligations.EveryInstructionCompletes := by
  unfold Obligations.EveryInstructionCompletes
  refine ⟨exec_completes, fun s h => ?_⟩
  cases hs : s.script with
  | nil =>
    rw [step_of_script_nil hs, fetchExecute_of_enabled h]
    exact exec_completes s.fetchInstr s
  | cons c calls =>
    rw [step_of_script_cons hs]
    exact hostMove_completes (enabled_setScript h calls) c

/-- Settles O49: the policy decides whether the first entry halts the core. -/
theorem fatalPolicyStopsAfterAFault : Obligations.FatalPolicyStopsAfterAFault := by
  unfold Obligations.FatalPolicyStopsAfterAFault
  intro s f fs hr hfaults hs
  rw [step_of_script_nil hs]
  refine ⟨fun hfatal => fetchExecute_of_haltedBy hr ?_, fun hskip => ?_⟩
  · rw [haltedBy_of_fatal hfatal, hfaults, List.head?_cons]
  · rw [fetchExecute_of_enabled ⟨hr, .inr hskip⟩]
    exact exec_completes s.fetchInstr s

/-- The three bytes at PC decode to the fetched instruction (30_encoding R55). -/
theorem eq_fetchInstr_of_decode {s : State} {i : Instr} {rest : List Byte}
    (h : decode [s.memRead s.pc, s.memRead (s.pc + 1), s.memRead (s.pc + 2)] = .ok (i, rest)) :
    i = s.fetchInstr := by
  rw [decode_three] at h
  cases h
  rfl

/-- Settles O46: what decodes is well-formed, and it is the instruction that an enabled core runs. -/
theorem stepRunsTheDecodedInstruction : Obligations.StepRunsTheDecodedInstruction := by
  unfold Obligations.StepRunsTheDecodedInstruction
  intro s i rest h hdecode
  have hwf : i.wf = true := (encodeOfDecodeIsTheBytes _ _ _ hdecode).1
  obtain rfl := eq_fetchInstr_of_decode hdecode
  refine ⟨hwf, fun hs => ?_, fun calls hs => ?_⟩
  · rw [step_of_script_nil hs, fetchExecute_of_enabled h]
  · rw [step_of_script_cons hs]
    exact fetchExecute_of_enabled (enabled_setScript h calls)

/-- An invalid byte at PC is fetched as INVALID (30_encoding R56). -/
theorem fetchInstr_of_contains {s : State}
    (h : invalidOpcodes.contains (s.memRead s.pc) = true) :
    s.fetchInstr = .invalid (s.memRead s.pc) := by
  rw [State.fetchInstr, instrOf, entryOf_of_contains h, Entry.build]

/-- Settles O38: INVALID raises and does nothing else; an enabled core runs it for each of the bytes. -/
theorem invalidOpcodeIsRecordedAndNothingElse :
    Obligations.InvalidOpcodeIsRecordedAndNothingElse := by
  unfold Obligations.InvalidOpcodeIsRecordedAndNothingElse
  refine ⟨fun s op => rfl, fun s h hs hop => ?_⟩
  rw [step_of_script_nil hs, fetchExecute_of_enabled h, fetchInstr_of_contains hop]
  rfl

/-- Settles O47: each call is the one its constructor names; `irq()` and `nmi()` need a reset. -/
theorem hostCallsHappenInOrder : Obligations.HostCallsHappenInOrder := by
  unfold Obligations.HostCallsHappenInOrder
  exact fun s calls addr v => ⟨rfl, rfl, fun hr => ⟨if_pos hr, if_pos hr⟩⟩

/-- Settles O48: a fetch and an interrupt test `resetDone`, which `reset()` does not. -/
theorem nothingRunsBeforeReset : Obligations.NothingRunsBeforeReset := by
  unfold Obligations.NothingRunsBeforeReset
  intro s calls hr
  have hn : ¬ s.resetDone = true := Bool.not_eq_true _ ▸ hr
  exact ⟨fetchExecute_of_not_reset hr, fetchExecute_of_not_reset hr, if_neg hn, if_neg hn, rfl⟩

/-- Settles O44: `reset()` writes the four fields of its frame, and of SR only I. -/
theorem resetWritesPcSpAndIOnly : Obligations.ResetWritesPcSpAndIOnly := by
  unfold Obligations.ResetWritesPcSpAndIOnly
  exact fun s => ⟨s.resetCall.sr, s.flag_resetCall, s.resetCall_frame⟩

/-- Settles O45: `reset()` of the machine at creation, computed. -/
theorem stateResetIsResetAtCreation : Obligations.StateResetIsResetAtCreation := by
  unfold Obligations.StateResetIsResetAtCreation
  exact ⟨by decide, rfl, rfl, rfl⟩

/-- Settles O52: at reset the memory and the fault record are empty. -/
theorem resetMeetsTheInvariant : Obligations.ResetMeetsTheInvariant := by
  unfold Obligations.ResetMeetsTheInvariant
  exact ⟨rfl, rfl, List.forall_mem_nil _⟩

end Sys2Proof.Proofs
end

section
/-! Timing is not behaviour (70_reset R237): every operation, instruction and step commutes with adding
to CYC. -/

namespace Sys2Proof.Proofs

open Sys2Proof Sys2Proof.Machine Sys2Proof.Stating

/-- The state with CYC grown by `d`. -/
def addCycles (d : Nat) (s : State) : State := s.setCyc (s.cyc + d)

/-- An answer whose next state, where it has one, has CYC grown by `d`. -/
def addCyclesToResult (d : Nat) : Result → Result
  | .next t => .next (addCycles d t)
  | .fault f => .fault f
  | .refused r => .refused r

section
variable (d : Nat) (s : State) (i : Instr)

/-- No resolver reads CYC. -/
theorem resolve_addCycles (o : Operand) : (addCycles d s).resolve o = s.resolve o := by
  cases o <;> rfl

theorem operandValue_addCycles (o : Operand) :
    (addCycles d s).operandValue o = s.operandValue o := by
  cases o <;> rfl

theorem afterFetch_addCycles : (addCycles d s).afterFetch i = addCycles d (s.afterFetch i) := rfl

theorem setFlag_addCycles (f : StatusFlag) (b : Bool) :
    (addCycles d s).setFlag f b = addCycles d (s.setFlag f b) := rfl

theorem setNZ_addCycles (v : Byte) : (addCycles d s).setNZ v = addCycles d (s.setNZ v) := rfl

theorem setPc_addCycles (v : Word) : (addCycles d s).setPc v = addCycles d (s.setPc v) := rfl

theorem memWrite_addCycles (a : Word) (v : Byte) :
    (addCycles d s).memWrite a v = addCycles d (s.memWrite a v) := rfl

theorem flag_addCycles (f : StatusFlag) : (addCycles d s).flag f = s.flag f := rfl

theorem writeBack_addCycles (r : Resolved) (v : Byte) :
    (addCycles d s).writeBack r v = addCycles d (s.writeBack r v) := by
  obtain ⟨hacc, h⟩ | ⟨hacc, h⟩ := s.writeBack_cases r v
  · rw [h, State.writeBack, if_pos hacc]
    rfl
  · rw [h, State.writeBack, if_neg (Bool.not_eq_true _ ▸ hacc)]
    rfl

theorem enterInterrupt_addCycles (vector : Word) (b : Bool) (ret : Word) :
    (addCycles d s).enterInterrupt vector b ret =
      addCycles d (s.enterInterrupt vector b ret) := by
  rw [addCycles, addCycles, State.setCyc_enterInterrupt, State.cyc_enterInterrupt]

/-- The step's own count is added to whatever CYC holds (70_reset R236). -/
theorem complete_addCycles (r : Resolved) (extra : Nat) :
    (addCycles d s).complete i r extra = addCyclesToResult d (s.complete i r extra) := by
  exact congrArg (fun n => Host.Outcome.next (s.setCyc n)) (Nat.add_right_comm s.cyc d _)

theorem readInstr_addCycles {f : State → Byte → State}
    (hf : ∀ t m, f (addCycles d t) m = addCycles d (f t m)) :
    (addCycles d s).readInstr i f = addCyclesToResult d (s.readInstr i f) := by
  rw [State.readInstr_eq, State.readInstr_eq, afterFetch_addCycles, resolve_addCycles,
    operandValue_addCycles, hf, complete_addCycles]

theorem storeInstr_addCycles (v : Byte) :
    (addCycles d s).storeInstr i v = addCyclesToResult d (s.storeInstr i v) := by
  rw [State.storeInstr_eq, State.storeInstr_eq, afterFetch_addCycles, resolve_addCycles,
    memWrite_addCycles, complete_addCycles]

theorem shiftInstr_addCycles (f : Byte → Bool → ShiftResult) :
    (addCycles d s).shiftInstr i f = addCyclesToResult d (s.shiftInstr i f) := by
  rw [State.shiftInstr, State.shiftInstr, afterFetch_addCycles, resolve_addCycles,
    operandValue_addCycles, flag_addCycles, setFlag_addCycles, writeBack_addCycles,
    setNZ_addCycles, complete_addCycles]

theorem modifyInstr_addCycles (f : Byte → Byte) :
    (addCycles d s).modifyInstr i f = addCyclesToResult d (s.modifyInstr i f) := by
  rw [State.modifyInstr_eq, State.modifyInstr_eq, afterFetch_addCycles, resolve_addCycles,
    operandValue_addCycles, memWrite_addCycles, setNZ_addCycles, complete_addCycles]

theorem impliedInstr_addCycles {f : State → State}
    (hf : ∀ t, f (addCycles d t) = addCycles d (f t)) :
    (addCycles d s).impliedInstr i f = addCyclesToResult d (s.impliedInstr i f) := by
  rw [State.impliedInstr_eq, State.impliedInstr_eq, afterFetch_addCycles, hf, complete_addCycles]

theorem jumpInstr_addCycles {f : State → State}
    (hf : ∀ t, f (addCycles d t) = addCycles d (f t)) :
    (addCycles d s).jumpInstr i f = addCyclesToResult d (s.jumpInstr i f) := by
  rw [State.jumpInstr_eq, State.jumpInstr_eq, afterFetch_addCycles, resolve_addCycles, hf,
    setPc_addCycles, complete_addCycles]

theorem branchInstr_addCycles (c : Bool) :
    (addCycles d s).branchInstr i c = addCyclesToResult d (s.branchInstr i c) := by
  rw [State.branchInstr, State.branchInstr, afterFetch_addCycles, resolve_addCycles,
    ← complete_addCycles]
  cases c <;> rfl

end

/-- No instruction reads CYC, by the shapes of the meanings. -/
theorem exec_addCycles (d : Nat) (i : Instr) (s : State) :
    exec i (addCycles d s) = addCyclesToResult d (exec i s) := by
  unfold exec
  cases i with
  | lda o | ldx o | ldy o | adc o | sbc o | and o | ora o | eor o | bit o | cmp o | cpx o | cpy o =>
    refine readInstr_addCycles d s _ fun t m => ?_
    rfl
  | sta o | stx o | sty o => exact storeInstr_addCycles d s _ _
  | asl o | lsr o | rol o | ror o => exact shiftInstr_addCycles d s _ _
  | inc o | dec o => exact modifyInstr_addCycles d s _ _
  | jmp o | jsr w =>
    refine jumpInstr_addCycles d s _ fun t => ?_
    rfl
  | bcc b | bcs b | beq b | bne b | bmi b | bpl b | bvc b | bvs b =>
    exact branchInstr_addCycles d s _ _
  | brk =>
    refine impliedInstr_addCycles d s _ fun t => ?_
    exact enterInterrupt_addCycles d t _ _ _
  | invalid op => rfl
  | _ =>
    refine impliedInstr_addCycles d s _ fun t => ?_
    rfl

theorem irq_addCycles (d : Nat) (s : State) : (addCycles d s).irq = addCycles d s.irq := by
  obtain ⟨hi, h⟩ | ⟨hi, h⟩ := s.irq_cases
  · rw [h]
    exact if_pos hi
  · rw [h]
    exact (if_neg (Bool.not_eq_true _ ▸ hi)).trans
      (enterInterrupt_addCycles d s Config.irqVector false s.pc)

theorem nmi_addCycles (d : Nat) (s : State) : (addCycles d s).nmi = addCycles d s.nmi :=
  enterInterrupt_addCycles d s Config.nmiVector false s.pc

theorem fetchExecute_addCycles (d : Nat) (s : State) :
    fetchExecute (addCycles d s) = addCyclesToResult d (fetchExecute s) := by
  obtain ⟨hr, he⟩ | ⟨hr, f, hf, he⟩ | ⟨hr, hn, he⟩ := fetchExecute_cases s
  · rw [he]
    exact fetchExecute_of_not_reset (s := addCycles d s) hr
  · rw [he]
    exact fetchExecute_of_haltedBy (s := addCycles d s) hr hf
  · rw [he, ← exec_addCycles]
    exact fetchExecute_of_not_halted (s := addCycles d s) hr hn

theorem hostMove_addCycles (d : Nat) (c : HostAction) (s : State) :
    hostMove c (addCycles d s) = addCyclesToResult d (hostMove c s) := by
  cases c with
  | fetchExecute => exact fetchExecute_addCycles d s
  | irq =>
    rw [hostMove, hostMove, irq_addCycles]
    cases hr : s.resetDone <;> simp [addCyclesToResult, addCycles, hr]
  | nmi =>
    rw [hostMove, hostMove, nmi_addCycles]
    cases hr : s.resetDone <;> simp [addCyclesToResult, addCycles, hr]
  | reset | memWrite addr v => rfl

/-- Settles O53: a step is a fetch or a call of the host, and both commute with adding to CYC. -/
theorem timingIsNotBehaviour : Obligations.TimingIsNotBehaviour := by
  unfold Obligations.TimingIsNotBehaviour
  intro s d
  change step (addCycles d s) = addCyclesToResult d (step s)
  cases hs : s.script with
  | nil =>
    rw [step_of_script_nil hs, step_of_script_nil (s := addCycles d s) hs]
    exact fetchExecute_addCycles d s
  | cons c calls =>
    rw [step_of_script_cons hs, step_of_script_cons (s := addCycles d s) hs]
    exact hostMove_addCycles d c (s.setScript calls)

end Sys2Proof.Proofs
end

section
/-! What an instruction can write (10_state R14-R29, 20_memory R44): the frames of branches and shifts,
and each field of the state through `exec`. -/

namespace Sys2Proof.Proofs

open Sys2Proof Sys2Proof.Machine Sys2Proof.Stating

section
variable {i : Instr} {s t : State}

/-- The next state of a branch (48_control_flow R144). -/
theorem eq_of_branchInstr {c : Bool} (h : s.branchInstr i c = .next t) :
    ∃ pc cyc, t = (s.setPc pc).setCyc cyc := by
  obtain ⟨pc, cyc, hframe⟩ := s.branchInstr_frame i c
  cases hframe.symm.trans h
  exact ⟨pc, cyc, rfl⟩

/-- Only the Accumulator mode resolves to A (40_addressing_modes R68). -/
theorem isAcc_resolve (u : State) (o : Operand) :
    (u.resolve o).isAcc = decide (o = .accumulator) := by
  cases o <;> rfl

theorem writeBack_of_accumulator (u v : State) {o : Operand} (h : o = .accumulator) (b : Byte) :
    v.writeBack (u.resolve o) b = v.setA b := by
  rw [State.writeBack, isAcc_resolve, if_pos (decide_eq_true h)]

theorem writeBack_of_ne_accumulator (u v : State) {o : Operand} (h : o ≠ .accumulator) (b : Byte) :
    v.writeBack (u.resolve o) b = v.memWrite (u.resolve o).ea b := by
  rw [State.writeBack, isAcc_resolve, if_neg (decide_eq_true_iff.not.mpr h)]

/-- What a shift or rotate forms of its operand and the incoming C (44_shift_rotate R122). -/
def shiftedAt (s : State) (i : Instr) (f : Byte → Bool → ShiftResult) : ShiftResult :=
  f (valueAt s i) (s.flag .carry)

theorem shiftInstr_eq (s : State) (i : Instr) (f : Byte → Bool → ShiftResult) :
    s.shiftInstr i f =
      ((((s.afterFetch i).setFlag .carry (shiftedAt s i f).out).writeBack
          ((s.afterFetch i).resolve i.operand) (shiftedAt s i f).res).setNZ
            (shiftedAt s i f).res).complete i ((s.afterFetch i).resolve i.operand) 0 := rfl

/-- The next state of a shift or rotate, on A and on memory (44_shift_rotate R122). -/
theorem eq_of_shiftInstr {f : Byte → Bool → ShiftResult} (h : s.shiftInstr i f = .next t) :
    (i.operand = .accumulator ∧ ∃ pc c v cyc,
        t = ((((s.setPc pc).setFlag .carry c).setA v).setNZ v).setCyc cyc) ∨
      (i.operand ≠ .accumulator ∧ ∃ pc c a v cyc,
        t = ((((s.setPc pc).setFlag .carry c).memWrite a v).setNZ v).setCyc cyc) := by
  rw [shiftInstr_eq] at h
  by_cases hacc : i.operand = .accumulator
  · rw [writeBack_of_accumulator _ _ hacc] at h
    cases h
    exact .inl ⟨hacc, _, _, _, _, rfl⟩
  · rw [writeBack_of_ne_accumulator _ _ hacc] at h
    cases h
    exact .inr ⟨hacc, _, _, _, _, _, rfl⟩

/-- An instruction but INVALID writes the architectural state and CYC, and no other field
(10_state R29). -/
theorem exec_frame (hi : ∀ op, i ≠ .invalid op) (h : exec i s = .next t) :
    ∃ pc a x y sp sr mem cyc, t = { s with
      pc := pc, a := a, x := x, y := y, sp := sp, sr := sr, mem := mem, cyc := cyc } := by
  cases i with
  | bcc b | bcs b | beq b | bne b | bmi b | bpl b | bvc b | bvs b =>
    obtain ⟨pc, cyc, rfl⟩ := eq_of_branchInstr h
    exact ⟨_, _, _, _, _, _, _, _, rfl⟩
  | asl o | lsr o | rol o | ror o =>
    obtain ⟨-, pc, c, v, cyc, rfl⟩ | ⟨-, pc, c, a, v, cyc, rfl⟩ := eq_of_shiftInstr h <;>
      exact ⟨_, _, _, _, _, _, _, _, rfl⟩
  | invalid op => exact absurd rfl (hi op)
  | _ =>
    cases h
    exact ⟨_, _, _, _, _, _, _, _, rfl⟩

/-- INVALID raises and does nothing else (49_flags_system R163). -/
theorem eq_of_exec_invalid {op : Byte} (h : exec (.invalid op) s = .next t) :
    t = s.raiseInvalidOpcode op := by
  cases h
  rfl

/-- BRK is an entry that counts seven cycles (49_flags_system R160). -/
theorem eq_of_exec_brk (h : exec .brk s = .next t) :
    t = (s.setCyc (s.cyc + 7)).enterInterrupt Config.irqVector true (s.pc + 2) := by
  rw [exec_brk] at h
  exact (Host.Outcome.next.inj h).symm

/-- No instruction touches `resetDone`, the parameters or the host's calls (10_state R29). -/
theorem exec_keeps_host (h : exec i s = .next t) :
    t.resetDone = s.resetDone ∧ t.params = s.params ∧ t.script = s.script := by
  by_cases hi : ∃ op, i = .invalid op
  · obtain ⟨op, rfl⟩ := hi
    rw [eq_of_exec_invalid h]
    exact ⟨rfl, rfl, rfl⟩
  · obtain ⟨_, _, _, _, _, _, _, _, rfl⟩ := exec_frame (not_exists.mp hi) h
    exact ⟨rfl, rfl, rfl⟩

/-- Only INVALID extends the fault record, by its own entry (60_exceptions R201). -/
theorem faults_of_exec (h : exec i s = .next t) :
    t.faults = s.faults ∨ ∃ op, i = .invalid op ∧ t.faults = s.faults ++ [⟨op, s.pc⟩] := by
  by_cases hi : ∃ op, i = .invalid op
  · obtain ⟨op, rfl⟩ := hi
    rw [eq_of_exec_invalid h]
    exact .inr ⟨op, rfl, rfl⟩
  · obtain ⟨_, _, _, _, _, _, _, _, rfl⟩ := exec_frame (not_exists.mp hi) h
    exact .inl rfl

/-- Every instruction keeps the memory canonical: what it stores, it stores by `write`
(20_memory R32). -/
theorem exec_keeps_wf (hm : Memory.wf s.mem = true) (h : exec i s = .next t) :
    Memory.wf t.mem = true := by
  cases i with
  | sta o | stx o | sty o | inc o | dec o =>
    cases h
    exact State.memWrite_wf (s := s) hm _ _
  | asl o | lsr o | rol o | ror o =>
    obtain ⟨-, pc, c, v, cyc, rfl⟩ | ⟨-, pc, c, a, v, cyc, rfl⟩ := eq_of_shiftInstr h
    · exact hm
    · exact State.memWrite_wf (s := s) hm a v
  | pha | php =>
    cases h
    exact State.push_wf (s := s) hm _
  | jsr w =>
    cases h
    exact State.pushWord_wf (s := s) hm _
  | brk =>
    rw [eq_of_exec_brk h]
    exact State.enterInterrupt_wf (s := s.setCyc (s.cyc + 7)) hm _ _ _
  | bcc b | bcs b | beq b | bne b | bmi b | bpl b | bvc b | bvs b =>
    obtain ⟨pc, cyc, rfl⟩ := eq_of_branchInstr h
    exact hm
  | _ =>
    cases h
    exact hm

/-- An instruction that stores nothing leaves the memory (20_memory R44). -/
theorem mem_of_not_stores (hw : stores i = false) (h : exec i s = .next t) : t.mem = s.mem := by
  cases i with
  | sta o | stx o | sty o | inc o | dec o | pha | php | jsr w | brk => cases hw
  | asl o | lsr o | rol o | ror o =>
    obtain ⟨-, pc, c, v, cyc, rfl⟩ | ⟨hacc, -⟩ := eq_of_shiftInstr h
    · rfl
    · exact absurd (bne_eq_false_iff_eq.mp hw) hacc
  | bcc b | bcs b | beq b | bne b | bmi b | bpl b | bvc b | bvs b =>
    obtain ⟨pc, cyc, rfl⟩ := eq_of_branchInstr h
    rfl
  | _ =>
    cases h
    rfl

/-- A register changes only through an instruction that writes it (10_state R14-R17). -/
theorem registers_of_not_writes (h : exec i s = .next t) :
    (writesA i = false → t.a = s.a) ∧ (writesX i = false → t.x = s.x) ∧
    (writesY i = false → t.y = s.y) ∧ (writesSp i = false → t.sp = s.sp) := by
  cases i with
  | lda o | txa | tya | adc o | sbc o | and o | ora o | eor o =>
    cases h
    exact ⟨nofun, fun _ => rfl, fun _ => rfl, fun _ => rfl⟩
  | ldx o | tax | tsx | inx | dex =>
    cases h
    exact ⟨fun _ => rfl, nofun, fun _ => rfl, fun _ => rfl⟩
  | ldy o | tay | iny | dey =>
    cases h
    exact ⟨fun _ => rfl, fun _ => rfl, nofun, fun _ => rfl⟩
  | txs | pha | php | plp | jsr w | rts | rti | brk =>
    cases h
    exact ⟨fun _ => rfl, fun _ => rfl, fun _ => rfl, nofun⟩
  | pla =>
    cases h
    exact ⟨nofun, fun _ => rfl, fun _ => rfl, nofun⟩
  | asl o | lsr o | rol o | ror o =>
    obtain ⟨hacc, pc, c, v, cyc, rfl⟩ | ⟨-, pc, c, a, v, cyc, rfl⟩ := eq_of_shiftInstr h
    · exact ⟨fun hw => absurd hacc (beq_eq_false_iff_ne.mp hw), fun _ => rfl, fun _ => rfl,
        fun _ => rfl⟩
    · exact ⟨fun _ => rfl, fun _ => rfl, fun _ => rfl, fun _ => rfl⟩
  | bcc b | bcs b | beq b | bne b | bmi b | bpl b | bvc b | bvs b =>
    obtain ⟨pc, cyc, rfl⟩ := eq_of_branchInstr h
    exact ⟨fun _ => rfl, fun _ => rfl, fun _ => rfl, fun _ => rfl⟩
  | _ =>
    cases h
    exact ⟨fun _ => rfl, fun _ => rfl, fun _ => rfl, fun _ => rfl⟩

end

/-- Settles O56, by the instructions' writers in `registers_of_not_writes`. -/
theorem onlyTheNamedInstructionsWriteARegister :
    Obligations.OnlyTheNamedInstructionsWriteARegister := by
  unfold Obligations.OnlyTheNamedInstructionsWriteARegister
  exact fun i s t _ h => registers_of_not_writes h

/-- Settles O57: the memory by `mem_of_not_stores`, the model's own fields by the frame of `exec`. -/
theorem onlyStoringInstructionsWriteMemory : Obligations.OnlyStoringInstructionsWriteMemory := by
  unfold Obligations.OnlyStoringInstructionsWriteMemory
  intro i s t _ h
  obtain ⟨hreset, hparams, hscript⟩ := exec_keeps_host h
  refine ⟨fun hw a => ?_, hreset, hparams, hscript, fun hi => ?_⟩
  · rw [State.memRead, mem_of_not_stores hw h, State.memRead]
  · obtain hf | ⟨op, hop, -⟩ := faults_of_exec h
    · exact hf
    · exact absurd hop (hi op)

/-! The bits of SR: what each flag computation leaves of a bit that it does not write. -/

section
variable {f : StatusFlag} (hn : f ≠ .negative) (hz : f ≠ .zero)

theorem flag_setCyc (s : State) (n : Nat) : (s.setCyc n).flag f = s.flag f := rfl

theorem flag_setFlag_of_ne (s : State) {g : StatusFlag} (h : f ≠ g) (b : Bool) :
    (s.setFlag g b).flag f = s.flag f := by
  rw [State.flag_setFlag, if_neg h]

include hn hz

theorem flag_setNZ_of_ne (s : State) (v : Byte) : (s.setNZ v).flag f = s.flag f := by
  rw [State.flag_setNZ, if_neg hz, if_neg hn]

theorem flag_compare_of_ne (s : State) (hc : f ≠ .carry) (r m : Byte) :
    (s.compare r m).flag f = s.flag f := by
  rw [State.flag_compare, if_neg hz, if_neg hn, if_neg hc]

theorem flag_bitTest_of_ne (s : State) (hv : f ≠ .overflow) (m : Byte) :
    (s.bitTest m).flag f = s.flag f := by
  rw [State.flag_bitTest, if_neg hv, if_neg hn, if_neg hz]

theorem flag_setAlu_of_ne (s : State) (hc : f ≠ .carry) (hv : f ≠ .overflow) (r : AluResult) :
    (s.setAlu r).flag f = s.flag f := by
  rw [State.flag_setAlu, if_neg hz, if_neg hn, if_neg hv, if_neg hc]

/-- A bit other than N and Z changes only through an instruction that writes it
(10_state R19, R21-R25). -/
theorem flag_of_not_writesFlag {i : Instr} {s t : State} (hw : writesFlag f i = false)
    (h : exec i s = .next t) : t.flag f = s.flag f := by
  have hne {g : StatusFlag} (hg : writesFlag g i = true) : f ≠ g := by
    rintro rfl
    exact Bool.noConfusion (hw.symm.trans hg)
  cases i with
  | lda o | ldx o | ldy o | tax | txa | tay | tya | tsx | and o | ora o | eor o | inc o | dec o
  | inx | iny | dex | dey | pla =>
    cases h
    rw [flag_setCyc, flag_setNZ_of_ne hn hz]
    rfl
  | adc o | sbc o =>
    cases h
    rw [flag_setCyc, flag_setAlu_of_ne hn hz _ (hne rfl) (hne rfl)]
    rfl
  | bit o =>
    cases h
    rw [flag_setCyc, flag_bitTest_of_ne hn hz _ (hne rfl)]
    rfl
  | cmp o | cpx o | cpy o =>
    cases h
    rw [flag_setCyc, flag_compare_of_ne hn hz _ (hne rfl)]
    rfl
  | asl o | lsr o | rol o | ror o =>
    obtain ⟨-, pc, c, v, cyc, rfl⟩ | ⟨-, pc, c, a, v, cyc, rfl⟩ := eq_of_shiftInstr h
    · rw [flag_setCyc, flag_setNZ_of_ne hn hz]
      exact flag_setFlag_of_ne s (hne rfl) c
    · rw [flag_setCyc, flag_setNZ_of_ne hn hz]
      exact flag_setFlag_of_ne s (hne rfl) c
  | clc | sec | cli | sei | cld | sed | clv =>
    cases h
    rw [flag_setCyc, flag_setFlag_of_ne _ (hne rfl)]
    rfl
  | brk =>
    rw [eq_of_exec_brk h, State.flag_enterInterrupt, if_neg (hne rfl)]
    rfl
  | plp | rti => exact absurd rfl (hne (g := f) (by cases f <;> rfl))
  | bcc b | bcs b | beq b | bne b | bmi b | bpl b | bvc b | bvs b =>
    obtain ⟨pc, cyc, rfl⟩ := eq_of_branchInstr h
    rfl
  | _ =>
    cases h
    rfl

end

/-- Settles O55, bit by bit. -/
theorem onlyTheNamedInstructionsWriteAFlag : Obligations.OnlyTheNamedInstructionsWriteAFlag := by
  unfold Obligations.OnlyTheNamedInstructionsWriteAFlag
  exact fun i s t f hn hz hw h => flag_of_not_writesFlag hn hz hw h

end Sys2Proof.Proofs
end

section
/-! What a step keeps (10_state R29, 20_memory R32, 60_exceptions R201): the canonical memory, the fault
record's entries, `resetDone` and the parameters; and so how a run can end (70_reset R240). -/

namespace Sys2Proof.Proofs

open Sys2Proof Sys2Proof.Machine Sys2Proof.Stating

/-- The state in which a step acts: the host's next call is taken off the script. -/
def callTaken (s : State) : State := s.setScript s.script.tail

/-- What a step that answers a next state can have done (30_encoding R55, 60_exceptions R215). -/
inductive StepCase (u t : State) : Prop
  | instr (h : exec u.fetchInstr u = .next t)
  | irq (h : t = u.irq)
  | nmi (h : t = u.nmi)
  | reset (h : t = u.resetCall)
  | memWrite (addr : Word) (v : Byte) (h : t = u.memWrite addr v)

theorem exec_of_fetchExecute {u t : State} (h : fetchExecute u = .next t) :
    exec u.fetchInstr u = .next t := by
  obtain ⟨-, he⟩ | ⟨-, f, -, he⟩ | ⟨-, -, he⟩ := fetchExecute_cases u
  · cases he.symm.trans h
  · cases he.symm.trans h
  · exact he.symm.trans h

theorem stepCase_of_hostMove {c : HostAction} {u t : State} (h : hostMove c u = .next t) :
    StepCase u t := by
  cases c with
  | fetchExecute => exact .instr (exec_of_fetchExecute h)
  | irq =>
    rw [hostMove, ite_eq_iff] at h
    obtain ⟨-, h⟩ | ⟨-, h⟩ := h
    · exact .irq (Host.Outcome.next.inj h).symm
    · cases h
  | nmi =>
    rw [hostMove, ite_eq_iff] at h
    obtain ⟨-, h⟩ | ⟨-, h⟩ := h
    · exact .nmi (Host.Outcome.next.inj h).symm
    · cases h
  | reset => exact .reset (Host.Outcome.next.inj h).symm
  | memWrite addr v => exact .memWrite addr v (Host.Outcome.next.inj h).symm

theorem step_cases {s t : State} (h : step s = .next t) : StepCase (callTaken s) t := by
  cases hs : s.script with
  | nil =>
    have hself : callTaken s = s := by
      rw [callTaken, hs, List.tail_nil, ← hs]
      rfl
    rw [step_of_script_nil hs] at h
    rw [hself]
    exact .instr (exec_of_fetchExecute h)
  | cons c calls =>
    rw [step_of_script_cons hs] at h
    rw [callTaken, hs, List.tail_cons]
    exact stepCase_of_hostMove h

section
variable {s t : State}

theorem irq_keeps_wf (hm : Memory.wf s.mem = true) : Memory.wf s.irq.mem = true := by
  obtain ⟨-, h⟩ | ⟨-, h⟩ := s.irq_cases
  · rw [h]
    exact hm
  · rw [h]
    exact State.enterInterrupt_wf hm _ _ _

theorem step_keeps_wf (hm : Memory.wf s.mem = true) (h : step s = .next t) :
    Memory.wf t.mem = true := by
  have hu : Memory.wf (callTaken s).mem = true := hm
  cases step_cases h with
  | instr h => exact exec_keeps_wf hu h
  | irq h => exact h ▸ irq_keeps_wf hu
  | nmi h => exact h ▸ State.enterInterrupt_wf hu _ _ _
  | reset h => exact h ▸ hu
  | memWrite addr v h => exact h ▸ State.memWrite_wf hu addr v

/-- An interrupt entry leaves the model's own fields (60_exceptions R204). -/
theorem enterInterrupt_keeps_host (s : State) (vector : Word) (b : Bool) (ret : Word) :
    (s.enterInterrupt vector b ret).resetDone = s.resetDone ∧
      (s.enterInterrupt vector b ret).params = s.params ∧
      (s.enterInterrupt vector b ret).faults = s.faults := by
  rw [State.enterInterrupt_frame]
  simp

theorem irq_keeps_host (s : State) :
    s.irq.resetDone = s.resetDone ∧ s.irq.params = s.params ∧ s.irq.faults = s.faults := by
  obtain ⟨-, h⟩ | ⟨-, h⟩ := s.irq_cases
  · rw [h]
    exact ⟨rfl, rfl, rfl⟩
  · rw [h]
    exact enterInterrupt_keeps_host s _ _ _

/-- No step clears `resetDone`, and none changes a parameter (00_scope R4, 10_state R29). -/
theorem step_keeps_host (h : step s = .next t) :
    (s.resetDone = true → t.resetDone = true) ∧ t.params = s.params := by
  cases step_cases h with
  | instr h =>
    obtain ⟨hreset, hparams, -⟩ := exec_keeps_host h
    exact ⟨hreset.trans, hparams⟩
  | irq h =>
    obtain ⟨hreset, hparams, -⟩ := irq_keeps_host (callTaken s)
    rw [h]
    exact ⟨hreset.trans, hparams⟩
  | nmi h =>
    obtain ⟨hreset, hparams, -⟩ :=
      enterInterrupt_keeps_host (callTaken s) Config.nmiVector false s.pc
    rw [h]
    exact ⟨hreset.trans, hparams⟩
  | reset h =>
    rw [h]
    exact ⟨fun _ => rfl, rfl⟩
  | memWrite addr v h =>
    rw [h]
    exact ⟨id, rfl⟩

/-- A step leaves the fault record or appends one invalid opcode to it (60_exceptions R201). -/
theorem faults_of_step (h : step s = .next t) :
    t.faults = s.faults ∨
      ∃ op addr, invalidOpcodes.contains op = true ∧ t.faults = s.faults ++ [⟨op, addr⟩] := by
  cases step_cases h with
  | instr h =>
    obtain hf | ⟨op, hop, hf⟩ := faults_of_exec h
    · exact .inl hf
    · have hwf : (callTaken s).fetchInstr.wf = true := (instrOf_encodes _ _ _).1
      rw [hop] at hwf
      exact .inr ⟨op, _, hwf, hf⟩
  | irq h =>
    obtain ⟨-, -, hf⟩ := irq_keeps_host (callTaken s)
    exact .inl (h ▸ hf)
  | nmi h =>
    obtain ⟨-, -, hf⟩ := enterInterrupt_keeps_host (callTaken s) Config.nmiVector false s.pc
    exact .inl (h ▸ hf)
  | reset h | memWrite addr v h =>
    rw [h]
    exact .inl rfl

theorem faults_prefix_of_step (h : step s = .next t) : s.faults <+: t.faults := by
  obtain hf | ⟨op, addr, -, hf⟩ := faults_of_step h
  · rw [hf]
  · rw [hf]
    exact List.prefix_append _ _

end

/-- Settles O51: the memory by `step_keeps_wf`, `resetDone` by `step_keeps_host`, the record by the
entry that `faults_of_step` says is appended. -/
theorem stepKeepsTheInvariant : Obligations.StepKeepsTheInvariant := by
  unfold Obligations.StepKeepsTheInvariant
  rintro s t ⟨hm, hreset, hops⟩ h
  refine ⟨step_keeps_wf hm h, (step_keeps_host h).1 hreset, ?_⟩
  obtain hf | ⟨op, addr, hop, hf⟩ := faults_of_step h
  · rwa [hf]
  · rw [hf]
    intro f hmem
    obtain hold | hnew := List.mem_append.mp hmem
    · exact hops f hold
    · rwa [List.mem_singleton.mp hnew]

/-- Settles O59: the record grows by at most one entry, and the host's fields are kept. -/
theorem faultRecordOnlyGrows : Obligations.FaultRecordOnlyGrows := by
  unfold Obligations.FaultRecordOnlyGrows
  exact fun s t h => ⟨faults_prefix_of_step h, step_keeps_host h⟩

theorem endedAt_iff (s : State) (stopPc : Word) :
    s.endedAt stopPc = true ↔ s.pc = stopPc ∧ s.faults = [] := by
  simp [State.endedAt]

/-- A run ends at once, or goes on from the next state of its first step (70_reset R240). -/
theorem runTo_ended_cases {stopPc : Word} {fuel : Nat} {s t : State}
    (h : runTo stopPc fuel s = .ended t) :
    (s.endedAt stopPc = true ∧ t = s) ∨
      ∃ n u, fuel = n + 1 ∧ step s = .next u ∧ runTo stopPc n u = .ended t := by
  rw [runTo.eq_def, ite_eq_iff] at h
  obtain ⟨hend, h⟩ | ⟨-, h⟩ := h
  · cases h
    exact .inl ⟨hend, rfl⟩
  · cases fuel with
    | zero => cases h
    | succ n =>
      cases hstep : step s with
      | next u =>
        simp only [hstep] at h
        exact .inr ⟨n, u, rfl, rfl, h⟩
      | fault f => simp [hstep] at h
      | refused r => simp [hstep] at h

/-- Settles O60, by induction on the fuel: a successful end has an empty record, and no step empties
one. -/
theorem runsEndOnlyAtStopPcWithoutFault : Obligations.RunsEndOnlyAtStopPcWithoutFault := by
  unfold Obligations.RunsEndOnlyAtStopPcWithoutFault
  intro stopPc fuel
  induction fuel with
  | zero =>
    intro s t h
    obtain ⟨hend, rfl⟩ | ⟨n, u, hn, -⟩ := runTo_ended_cases h
    · obtain ⟨hpc, hf⟩ := (endedAt_iff t stopPc).mp hend
      exact ⟨hpc, hf, hf⟩
    · cases hn
  | succ n ih =>
    intro s t h
    obtain ⟨hend, rfl⟩ | ⟨m, u, hm, hstep, hrun⟩ := runTo_ended_cases h
    · obtain ⟨hpc, hf⟩ := (endedAt_iff t stopPc).mp hend
      exact ⟨hpc, hf, hf⟩
    · cases hm
      obtain ⟨hpc, hf, hu⟩ := ih u t hrun
      have hprefix := faults_prefix_of_step hstep
      rw [hu] at hprefix
      exact ⟨hpc, hf, List.prefix_nil.mp hprefix⟩

end Sys2Proof.Proofs
end

section
/-! The counts of the instructions (70_reset R235): base cycles, page crosses, and a branch's own. -/

namespace Sys2Proof.Proofs

open Sys2Proof Sys2Proof.Machine Sys2Proof.Stating

theorem pageCross_le_one (base ea : Word) : pageCross base ea ≤ 1 := by
  rw [pageCross]
  split <;> decide

/-- A resolver reports at most one additional cycle (40_addressing_modes R81). -/
theorem crossAt_le_one (s : State) (i : Instr) : crossAt s i ≤ 1 := by
  rw [crossAt]
  cases i.operand with
  | absoluteX w | absoluteY w | indirectY b => exact pageCross_le_one _ _
  | _ => exact Nat.zero_le 1

/-- The base count of a well-formed instruction but INVALID, and what a counted page cross adds, row by
row of the table (30_encoding R54). -/
theorem baseCycles_bounds {i : Instr} (hwf : i.wf = true) (hi : ∀ op, i ≠ .invalid op) :
    2 ≤ baseCycles i ∧ baseCycles i + (if countsPageCross i then 1 else 0) ≤ 7 := by
  have hrows : (!i.wf || (decide (2 ≤ baseCycles i) &&
      decide (baseCycles i + (if countsPageCross i then 1 else 0) ≤ 7))) = true := by
    cases i with
    | lda o | ldx o | ldy o | sta o | stx o | sty o | adc o | sbc o | and o | ora o | eor o | bit o
    | asl o | lsr o | rol o | ror o | inc o | dec o | cmp o | cpx o | cpy o | jmp o =>
      cases o <;> rfl
    | invalid op => exact absurd rfl (hi op)
    | _ => rfl
  simpa [hwf] using hrows

theorem plainCycles_bounds (s : State) {i : Instr} (hwf : i.wf = true)
    (hi : ∀ op, i ≠ .invalid op) : 2 ≤ plainCycles s i ∧ plainCycles s i ≤ 7 := by
  obtain ⟨hlow, hhigh⟩ := baseCycles_bounds hwf hi
  have hcross : (if countsPageCross i then crossAt s i else 0) ≤
      if countsPageCross i then 1 else 0 := by
    split
    · exact crossAt_le_one s i
    · exact Nat.le_refl 0
  exact ⟨Nat.le_add_right_of_le hlow, (Nat.add_le_add_left hcross _).trans hhigh⟩

theorem cyc_of_shiftInstr {i : Instr} {s t : State} {f : Byte → Bool → ShiftResult}
    (h : s.shiftInstr i f = .next t) : t.cyc = s.cyc + plainCycles s i := by
  rw [shiftInstr_eq] at h
  by_cases hacc : i.operand = .accumulator
  · rw [writeBack_of_accumulator _ _ hacc] at h
    cases h
    rfl
  · rw [writeBack_of_ne_accumulator _ _ hacc] at h
    cases h
    rfl

/-- A branch counts 2, 3 or 4 cycles (48_control_flow R144). -/
theorem cyc_of_branchInstr {i : Instr} {off : Byte} {s t : State} {c : Bool}
    (hop : i.operand = .relative off) (hbase : baseCycles i = 2)
    (h : s.branchInstr i c = .next t) : s.cyc + 2 ≤ t.cyc ∧ t.cyc ≤ s.cyc + 7 := by
  cases c with
  | false =>
    rw [branchInstr_not_taken hop hbase] at h
    cases h
    exact ⟨Nat.le_refl _, Nat.add_le_add_left (by decide) _⟩
  | true =>
    rw [branchInstr_taken hop hbase] at h
    cases h
    have hcross := pageCross_le_one (s.pc + 2) (s.pc + 2 + sext16 off)
    exact ⟨Nat.add_le_add_left (by omega) _, Nat.add_le_add_left (by omega) _⟩

/-- Every completed instruction but INVALID counts 2 to 7 cycles. -/
theorem cyc_of_exec {i : Instr} {s t : State} (hwf : i.wf = true) (hi : ∀ op, i ≠ .invalid op)
    (h : exec i s = .next t) : s.cyc + 2 ≤ t.cyc ∧ t.cyc ≤ s.cyc + 7 := by
  obtain ⟨hlow, hhigh⟩ := plainCycles_bounds s hwf hi
  cases i with
  | bcc b | bcs b | beq b | bne b | bmi b | bpl b | bvc b | bvs b =>
    exact cyc_of_branchInstr rfl rfl h
  | asl o | lsr o | rol o | ror o =>
    rw [cyc_of_shiftInstr h]
    exact ⟨Nat.add_le_add_left hlow _, Nat.add_le_add_left hhigh _⟩
  | invalid op => exact absurd rfl (hi op)
  | _ =>
    cases h
    exact ⟨Nat.add_le_add_left hlow _, Nat.add_le_add_left hhigh _⟩

/-- Settles O54: INVALID adds no cycle, and `cyc_of_exec` bounds the others. -/
theorem cycleCountsAreTwoToSeven : Obligations.CycleCountsAreTwoToSeven := by
  unfold Obligations.CycleCountsAreTwoToSeven
  intro i s hwf
  obtain ⟨t, h⟩ := exec_completes i s
  refine ⟨t, h, ?_, fun hi => cyc_of_exec hwf hi h⟩
  rintro ⟨op, rfl⟩
  rw [eq_of_exec_invalid h]
  rfl

end Sys2Proof.Proofs
end

section
/-! Pushes and interrupts (20_memory R43, 48_control_flow R142, R143, 60_exceptions R204-R210): the bytes
that pushes leave, the state an entry leaves, and what the returns find there. -/

namespace Sys2Proof.Proofs

open Sys2Proof Sys2Proof.Machine Sys2Proof.Stating

theorem slot_inj {p q : Byte} : slot p = slot q ↔ p = q := by
  rw [slot_eq_stackAddress, slot_eq_stackAddress, stackAddress_inj]

theorem toNat_slot (sp : Byte) : (slot sp).toNat = 256 + sp.toNat := by
  rw [slot_eq_stackAddress, toNat_stackAddress]

theorem sub_ofNat_succ (sp : Byte) (k : Nat) :
    sp - BitVec.ofNat 8 (k + 1) = sp - 1 - BitVec.ofNat 8 k := by
  rw [BitVec.ofNat_add]
  exact sub_add_eq_sub_sub_swap sp (BitVec.ofNat 8 k) 1

/-- Fewer than 256 pushes do not come back to the slot they began at (20_memory R43). -/
theorem sub_ofNat_ne_self (sp : Byte) {k : Nat} (hpos : 0 < k) (hlt : k < 256) :
    sp ≠ sp - BitVec.ofNat 8 k := by
  intro h
  have hzero : BitVec.ofNat 8 k = 0 := sub_eq_self.mp h.symm
  have hk : k % 256 = 0 := congrArg BitVec.toNat hzero
  omega

/-- Pushes one after another leave their bytes in the slots below SP, and every other byte
(00_scope R8, 20_memory R43). -/
theorem pushed_foldl {s : State} (h : Memory.wf s.mem = true) {vs : List Byte}
    (hlen : vs.length ≤ 256) : Pushed s.mem (vs.foldl State.push s).mem s.sp vs := by
  induction vs generalizing s with
  | nil => exact ⟨nofun, fun _ _ => rfl⟩
  | cons v vs ih =>
    rw [List.length_cons] at hlen
    obtain ⟨hlater, hother⟩ := ih (State.push_wf h v) (Nat.le_of_succ_le hlen)
    obtain ⟨hfirst, hkept⟩ := pushed_push h v
    rw [push_sp] at hlater hother
    refine ⟨fun k hk => ?_, fun b hb => ?_⟩
    · cases k with
      | zero =>
        refine (hother _ fun j hj heq => ?_).trans (hfirst 0 Nat.one_pos)
        rw [slot_inj, ← sub_ofNat_succ, BitVec.sub_zero] at heq
        exact sub_ofNat_ne_self s.sp j.succ_pos (by omega) heq
      | succ j =>
        rw [sub_ofNat_succ]
        exact hlater j (Nat.lt_of_succ_lt_succ hk)
    · refine (hother b fun j hj => ?_).trans (hkept b fun j hj => hb j ?_)
      · rw [← sub_ofNat_succ]
        exact hb (j + 1) (Nat.succ_lt_succ hj)
      · exact Nat.lt_of_lt_of_le hj (Nat.succ_le_succ vs.length.zero_le)

/-- The byte of one push, at the index where it was made. -/
theorem read_slot_of_pushed {m m' : Memory} {sp q v : Byte} {vs : List Byte}
    (h : Pushed m m' sp vs) (k : Nat) (hk : vs[k]? = some v) (hq : sp - BitVec.ofNat 8 k = q) :
    Memory.read m' (slot q).toNat = v := by
  obtain ⟨hlt, hv⟩ := List.getElem?_eq_some_iff.mp hk
  rw [← hq, h.1 k hlt, hv]

/-- Pushes write no byte outside page 1 (20_memory R43(a)). -/
theorem read_of_pushed {m m' : Memory} {sp : Byte} {vs : List Byte} (h : Pushed m m' sp vs)
    {a : Word} (ha : a.toNat < 256 ∨ 512 ≤ a.toNat) :
    Memory.read m' a.toNat = Memory.read m a.toNat := by
  refine h.2 a fun k _ heq => ?_
  have hnat := congrArg BitVec.toNat heq
  rw [toNat_slot] at hnat
  have hsp := (sp - BitVec.ofNat 8 k).isLt
  omega

/-- The pushed copy of SR: Break as asked, Unused 1, the other six bits as they are
(60_exceptions R204). -/
theorem bits_pushedStatus (s : State) (b : Bool) :
    Bits (pushedStatus s.sr b) (withBit (withBit s.flag .brk b) .unused true) :=
  fun f => getLsbD_pushedStatus s.sr b f

/-- PHA writes the slot, SP, PC and CYC (47_stack R137). -/
theorem exec_pha (s : State) :
    exec .pha s = .next { after s .pha 3 with mem := (s.push s.a).mem, sp := s.sp - 1 } :=
  rfl

/-- PHP pushes the copy of SR with Break 1 (47_stack R139). -/
theorem exec_php (s : State) :
    exec .php s =
      .next { after s .php 3 with
        mem := (s.push (pushedStatus s.sr true)).mem, sp := s.sp - 1 } := by
  rw [pushedStatus_brk]
  rfl

/-- Settles O27: both are one push, whose bytes `pushed_push` gives. -/
theorem pushesStoreThenDecrement : Obligations.PushesStoreThenDecrement := by
  unfold Obligations.PushesStoreThenDecrement
  exact ⟨⟨rfl, fun s hm => ⟨_, pushed_push hm s.a, exec_pha s⟩⟩, rfl, fun s hm =>
    ⟨_, _, bits_pushedStatus s true, pushed_push hm _, exec_php s⟩⟩

/-- JSR pushes the address of its last byte and jumps (48_control_flow R142). -/
theorem exec_jsr (s : State) (target : Word) :
    exec (.jsr target) s = .next { s with
      pc := target, cyc := s.cyc + 6, mem := (s.pushWord (s.pc + 2)).mem, sp := s.sp - 2 } := by
  have hret : s.pc + 3 - 1 = s.pc + 2 := add_sub_assoc s.pc 3 1
  have hsp : s.sp - 1 - 1 = s.sp - 2 := sub_sub s.sp 1 1
  rw [← hret, ← hsp]
  rfl

/-- Settles O31: the word is two pushes, high byte first, whose bytes `pushed_foldl` gives. -/
theorem jsrPushesItsLastByteAndJumps : Obligations.JsrPushesItsLastByteAndJumps := by
  unfold Obligations.JsrPushesItsLastByteAndJumps
  intro s target
  refine ⟨rfl, fun hm => ⟨_, ?_, exec_jsr s target⟩⟩
  exact pushed_foldl hm (vs := [hiByte (s.pc + 2), loByte (s.pc + 2)]) (by simp)

/-- Settles O33: RTS finds the pushed word in the two slots above SP. -/
theorem rtsAfterJsrResumesAfterTheCall : Obligations.RtsAfterJsrResumesAfterTheCall := by
  unfold Obligations.RtsAfterJsrResumesAfterTheCall
  intro s t target hm h
  obtain ⟨m, hpushed, hjsr⟩ := (jsrPushesItsLastByteAndJumps s target).2 hm
  cases hjsr.symm.trans h
  have hhigh := read_slot_of_pushed hpushed 0 rfl (BitVec.sub_zero s.sp)
  have hlow := read_slot_of_pushed hpushed (q := s.sp - 1) 1 rfl rfl
  have hsp : s.sp - 2 + 2 = s.sp := BitVec.sub_add_cancel s.sp 2
  have hsp' : s.sp - 2 + 1 = s.sp - 1 := sub_add s.sp 2 1
  have hpc : s.pc + 2 + 1 = s.pc + 3 := add_assoc s.pc 2 1
  rw [rtsPopsAndAddsOne.2]
  dsimp only
  rw [hsp, hsp', hhigh, hlow, concat16_hi_lo, hpc]

/-- RTI writes SR, PC, SP and CYC (49_flags_system R161). -/
theorem exec_rti (s : State) :
    exec .rti s = .next { s with
      sr := s.popped, pc := s.afterPop.poppedWord, cyc := s.cyc + 6, sp := s.sp + 1 + 1 + 1 } :=
  rfl

/-- Settles O37: the popped byte and word are found at the three slots above SP. -/
theorem rtiRestoresStatusAndPc : Obligations.RtiRestoresStatusAndPc := by
  unfold Obligations.RtiRestoresStatusAndPc
  refine ⟨rfl, fun s => ?_⟩
  have hword : s.afterPop.poppedWord = concat16 (Memory.read s.mem (slot (s.sp + 3)).toNat)
      (Memory.read s.mem (slot (s.sp + 2)).toNat) := by
    rw [poppedWord_eq_read_slot, afterPop_sp, add_assoc, add_assoc]
    rfl
  have hsp : s.sp + 1 + 1 + 1 = s.sp + 3 := by
    rw [add_assoc, add_assoc]
    rfl
  rw [exec_rti, popped_eq_read_slot, hword, hsp]

/-- An entry through a vector outside the stack page, in the form of the statements
(60_exceptions R204, R212). -/
theorem entered_enterInterrupt {s : State} (hm : Memory.wf s.mem = true) {vector : Word}
    (hv : 512 ≤ vector.toNat) (hv' : 512 ≤ (vector + 1).toNat) (b : Bool) (ret : Word) :
    Entered s (s.enterInterrupt vector b ret) vector ret (pushedStatus s.sr b) := by
  have hsp : s.sp - 1 - 1 - 1 = s.sp - 3 := by
    rw [sub_sub, sub_sub]
    rfl
  have hframe := State.enterInterrupt_frame s vector b ret
  have hflags := s.flag_enterInterrupt vector b ret
  have hpushed : Pushed s.mem (s.enterInterrupt vector b ret).mem s.sp
      [hiByte ret, loByte ret, pushedStatus s.sr b] := by
    rw [State.mem_enterInterrupt]
    exact pushed_foldl hm (vs := [hiByte ret, loByte ret, pushedStatus s.sr b]) (by simp)
  rw [State.pc_enterInterrupt hm vector b ret hv hv', hsp] at hframe
  generalize s.enterInterrupt vector b ret = t at hframe hflags hpushed ⊢
  exact ⟨t.mem, t.sr, hpushed, hflags, hframe⟩

theorem entered_nmi {s : State} (hm : Memory.wf s.mem = true) :
    Entered s s.nmi 0xFFFA s.pc (pushedStatus s.sr false) :=
  entered_enterInterrupt hm (by decide) (by decide) false s.pc

theorem entered_irq {s : State} (hm : Memory.wf s.mem = true)
    (hi : s.flag .interruptDisable = false) :
    Entered s s.irq 0xFFFE s.pc (pushedStatus s.sr false) := by
  obtain ⟨hi', -⟩ | ⟨-, h⟩ := s.irq_cases
  · exact Bool.noConfusion (hi.symm.trans hi')
  · rw [h]
    exact entered_enterInterrupt hm (by decide) (by decide) false s.pc

theorem irq_of_interruptDisable {s : State} (hi : s.flag .interruptDisable = true) : s.irq = s :=
  if_pos hi

/-- The entry of BRK, whose seven cycles CYC has already counted (49_flags_system R160). -/
theorem entered_brk {s : State} (hm : Memory.wf s.mem = true) :
    Entered { s with cyc := s.cyc + 7 }
      ((s.setCyc (s.cyc + 7)).enterInterrupt Config.irqVector true (s.pc + 2)) 0xFFFE (s.pc + 2)
      (pushedStatus s.sr true) :=
  entered_enterInterrupt (s := s.setCyc (s.cyc + 7)) hm (by decide) (by decide) true (s.pc + 2)

/-- Settles O36: BRK is `exec_brk`, an entry with Break pushed 1. -/
theorem brkEntersThroughTheIrqVector : Obligations.BrkEntersThroughTheIrqVector := by
  unfold Obligations.BrkEntersThroughTheIrqVector
  exact ⟨rfl, fun s hm => ⟨_, _, exec_brk s, bits_pushedStatus s true, entered_brk hm⟩⟩

/-- Settles O39: I decides between `irq_of_interruptDisable` and the entry. -/
theorem irqIsGatedByInterruptDisable : Obligations.IrqIsGatedByInterruptDisable := by
  unfold Obligations.IrqIsGatedByInterruptDisable
  exact fun s => ⟨irq_of_interruptDisable, fun hi hm =>
    ⟨_, bits_pushedStatus s false, entered_irq hm hi⟩⟩

/-- Settles O40: `nmi()` is the entry, for every I. -/
theorem nmiIsNeverGated : Obligations.NmiIsNeverGated := by
  unfold Obligations.NmiIsNeverGated
  exact fun s hm => ⟨_, bits_pushedStatus s false, entered_nmi hm⟩

/-- RTI right after an entry finds the three bytes it pushed: SP is back where it was, PC and SR are
those pushed (60_exceptions R210). -/
theorem exec_rti_of_entered {s t : State} {vector ret : Word} {p : Byte}
    (h : Entered s t vector ret p) :
    exec .rti t = .next { t with pc := ret, sp := s.sp, sr := p, cyc := t.cyc + 6 } := by
  obtain ⟨m, sr, hpushed, -, rfl⟩ := h
  have hhigh := read_slot_of_pushed hpushed 0 rfl (BitVec.sub_zero s.sp)
  have hlow := read_slot_of_pushed hpushed (q := s.sp - 1) 1 rfl rfl
  have hstatus := read_slot_of_pushed hpushed (q := s.sp - 2) 2 rfl rfl
  have hsp3 : s.sp - 3 + 3 = s.sp := BitVec.sub_add_cancel s.sp 3
  have hsp2 : s.sp - 3 + 2 = s.sp - 1 := sub_add s.sp 3 2
  have hsp1 : s.sp - 3 + 1 = s.sp - 2 := sub_add s.sp 3 1
  rw [rtiRestoresStatusAndPc.2]
  dsimp only
  rw [hsp1, hsp2, hsp3, hhigh, hlow, hstatus, concat16_hi_lo]

theorem pushed_of_entered {s t : State} {vector ret : Word} {p : Byte}
    (h : Entered s t vector ret p) : Pushed s.mem t.mem s.sp [hiByte ret, loByte ret, p] := by
  obtain ⟨m, sr, hpushed, -, rfl⟩ := h
  exact hpushed

/-- An entry reads the vector of the next one as it was (60_exceptions R212). -/
theorem read16_of_entered {s t : State} {vector ret : Word} {p : Byte}
    (h : Entered s t vector ret p) {a : Word} (ha : 512 ≤ a.toNat) (ha' : 512 ≤ (a + 1).toNat) :
    t.read16 a = s.read16 a := by
  have hpushed := pushed_of_entered h
  exact congrArg₂ concat16 (read_of_pushed hpushed (.inr ha')) (read_of_pushed hpushed (.inr ha))

theorem pc_of_entered {s t : State} {vector ret : Word} {p : Byte}
    (h : Entered s t vector ret p) : t.pc = s.read16 vector := by
  obtain ⟨m, sr, -, -, rfl⟩ := h
  rfl

theorem cyc_of_entered {s t : State} {vector ret : Word} {p : Byte}
    (h : Entered s t vector ret p) : t.cyc = s.cyc := by
  obtain ⟨m, sr, -, -, rfl⟩ := h
  rfl

/-- Settles O41: an entry sets I, which drops the `irq()`; the `nmi()` after one is an entry from the
state it left. -/
theorem callOrderDecidesInterruptOrder : Obligations.CallOrderDecidesInterruptOrder := by
  unfold Obligations.CallOrderDecidesInterruptOrder
  refine fun s => ⟨irq_of_interruptDisable ?_, fun hi hm => ?_⟩
  · exact State.flag_enterInterrupt s _ _ _ .interruptDisable
  · have hirq := entered_irq hm hi
    have hnmi := entered_nmi (irq_keeps_wf hm)
    refine ⟨(pc_of_entered hnmi).trans (read16_of_entered hirq (by decide) (by decide)), ?_⟩
    rw [exec_rti_of_entered hnmi, cyc_of_entered hnmi, cyc_of_entered hirq]

/-- Settles O42: both calls are entries that return to PC with Break pushed 0, and RTI takes back what
they pushed. -/
theorem rtiResumesWhatTheInterruptStopped : Obligations.RtiResumesWhatTheInterruptStopped := by
  unfold Obligations.RtiResumesWhatTheInterruptStopped
  intro s t hm ht
  have hentered : ∃ vector, Entered s t vector s.pc (pushedStatus s.sr false) := by
    obtain rfl | ⟨rfl, hi⟩ := ht
    · exact ⟨_, entered_nmi hm⟩
    · exact ⟨_, entered_irq hm hi⟩
  obtain ⟨vector, hentered⟩ := hentered
  have hrti := exec_rti_of_entered hentered
  obtain ⟨m, sr, ⟨-, hother⟩, -, rfl⟩ := hentered
  refine ⟨m, _, bits_pushedStatus s false, fun a h0 h1 h2 => hother a fun k hk => ?_, hrti⟩
  match k, hk with
  | 0, _ => exact (BitVec.sub_zero s.sp).symm ▸ h0
  | 1, _ => exact h1
  | 2, _ => exact h2

/-- Settles O43: BRK is an entry that pushed PC + 2 and SR with Break and Unused set. -/
theorem rtiAfterBrkSkipsThePaddingByte : Obligations.RtiAfterBrkSkipsThePaddingByte := by
  unfold Obligations.RtiAfterBrkSkipsThePaddingByte
  intro s t hm h
  have hentered := entered_brk hm
  rw [← eq_of_exec_brk h] at hentered
  rw [exec_rti_of_entered hentered, pushedStatus_brk]

/-- Settles O58: each of the six is pushes, which stay in page 1, or a dropped `irq()`. -/
theorem stackWritesStayInPageOne : Obligations.StackWritesStayInPageOne := by
  unfold Obligations.StackWritesStayInPageOne
  intro s t target a hm h ha
  have hpushed : t = s ∨ ∃ vs, Pushed s.mem t.mem s.sp vs := by
    obtain h | h | h | h | rfl | rfl := h
    · cases (exec_pha s).symm.trans h
      exact .inr ⟨_, pushed_push hm s.a⟩
    · cases (exec_php s).symm.trans h
      exact .inr ⟨_, pushed_push hm _⟩
    · obtain ⟨m, hp, hjsr⟩ := (jsrPushesItsLastByteAndJumps s target).2 hm
      cases hjsr.symm.trans h
      exact .inr ⟨_, hp⟩
    · rw [eq_of_exec_brk h]
      exact .inr ⟨_, pushed_of_entered (s := s.setCyc (s.cyc + 7)) (entered_brk hm)⟩
    · obtain ⟨-, hi⟩ | ⟨hi, -⟩ := s.irq_cases
      · exact .inl hi
      · exact .inr ⟨_, pushed_of_entered (entered_irq hm hi)⟩
    · exact .inr ⟨_, pushed_of_entered (entered_nmi hm)⟩
  obtain rfl | ⟨vs, hp⟩ := hpushed
  · rfl
  · exact read_of_pushed hp ha

end Sys2Proof.Proofs
end

section
/-! Operands and branch targets (30_encoding R59, 40_addressing_modes R66-R79): the absolute and relative
addresses as numbers, and the value at an address. -/

namespace Sys2Proof.Proofs

open Sys2Proof Sys2Proof.Machine Sys2Proof.Stating

/-- A distance is its low byte sign-extended exactly when it fits a signed byte (R59). -/
theorem sext16_loByte_eq_iff (d : Word) :
    sext16 (loByte d) = d ↔ -128 ≤ d.toInt ∧ d.toInt ≤ 127 := by
  have hlo := toNat_loByte d
  have hbyte := BitVec.toInt_eq_toNat_cond (loByte d)
  have hword := BitVec.toInt_eq_toNat_cond d
  rw [← BitVec.toInt_inj, toInt_sext16, hbyte, hword, hlo]
  have hd := d.isLt
  split <;> split <;> omega

/-- Settles O5: the offset emitted is the low byte of the distance, when that is the distance. -/
theorem assembledBranchReachesItsTarget : Obligations.AssembledBranchReachesItsTarget := by
  unfold Obligations.AssembledBranchReachesItsTarget
  intro a target
  rw [← sext16_loByte_eq_iff, branchOffset]
  refine ⟨fun off h => ?_, ?_⟩
  · obtain ⟨hd, hoff⟩ := Option.ite_none_right_eq_some.mp h
    obtain rfl := Option.some.inj hoff
    change a + 2 + sext16 _ = target
    rw [hd, add_sub_cancel]
  · exact Option.isSome_ite

theorem toNat_concat16_div (hi lo : Byte) : (concat16 hi lo).toNat / 256 = hi.toNat := by
  rw [← toNat_hiByte, hiByte_concat16]

/-- The operand bytes of a word, low first (30_encoding R51). -/
theorem loHi_concat16 (hi lo : Byte) :
    [loByte (concat16 hi lo), hiByte (concat16 hi lo)] = [lo, hi] := by
  rw [loByte_concat16, hiByte_concat16]

/-- An index added to a base: the address modulo 2^16, and the flag by the base's high byte
(R74, R75, R81). -/
theorem indexed_concat16 (hi lo d : Byte) :
    let w := concat16 hi lo
    (w + zext16 d).toNat = (w.toNat + d.toNat) % 65536 ∧
      pageCross w (w + zext16 d) = if (w + zext16 d).toNat / 256 = hi.toNat then 0 else 1 :=
  ⟨toNat_add_zext16 _ d, by rw [pageCross_eq, toNat_concat16_div]⟩

/-- Settles O7: both index registers are added in the way of `indexed_concat16`. -/
theorem absoluteModesAddTheIndex : Obligations.AbsoluteModesAddTheIndex := by
  unfold Obligations.AbsoluteModesAddTheIndex
  intro t ll hh w
  obtain ⟨hx, hx'⟩ := indexed_concat16 hh ll t.x
  obtain ⟨hy, hy'⟩ := indexed_concat16 hh ll t.y
  exact ⟨toNat_concat16 hh ll, ⟨loHi_concat16 hh ll, rfl⟩, ⟨loHi_concat16 hh ll, hx, rfl, hx'⟩,
    loHi_concat16 hh ll, hy, rfl, hy'⟩

/-- The target of a relative operand, over the integers modulo 2^16 (R79). -/
theorem toNat_add_sext16 (w : Word) (off : Byte) :
    ((w + sext16 off).toNat : Int) = (w.toNat + off.toInt) % 65536 := by
  have hoff := toInt_sext16 off
  rw [BitVec.toInt_eq_toNat_cond] at hoff
  rw [BitVec.toNat_add, ← hoff]
  split <;> omega

/-- Settles O10: `toNat_add_sext16`; the resolver reports nothing else. -/
theorem relativeAddsTheSignedOffset : Obligations.RelativeAddsTheSignedOffset := by
  unfold Obligations.RelativeAddsTheSignedOffset
  exact fun t off => ⟨rfl, toNat_add_sext16 t.pc off, rfl, rfl⟩

theorem valueAt_of_memory (s : State) {i : Instr} (hacc : i.operand ≠ .accumulator)
    (himm : ∀ imm, i.operand ≠ .immediate imm) :
    valueAt s i = Memory.read s.mem (eaAt s i).toNat := by
  rw [valueAt, eaAt]
  cases ho : i.operand with
  | accumulator => exact absurd ho hacc
  | immediate imm => exact absurd ho (himm imm)
  | _ => rfl

/-- The operand bytes of a fetched instruction are those its entry consumes (30_encoding R52, R55). -/
theorem operandBytes_instrOf (op b1 b2 : Byte) :
    (instrOf op b1 b2).operand.bytes = entryBytes b1 b2 (entryOf op) := by
  have henc := (instrOf_encodes op b1 b2).2
  cases hop : (instrOf op b1 b2).opcode? with
  | none => simp [encode, hop] at henc
  | some op' =>
    rw [encode_of_opcode hop] at henc
    exact (List.cons.inj henc).2

/-- One consumed byte is the one after the opcode. -/
theorem eq_of_entryBytes_eq_singleton {b1 b2 b : Byte} {e : Entry}
    (h : entryBytes b1 b2 e = [b]) : b1 = b := by
  cases e with
  | one i => cases h
  | two f => exact List.singleton_inj.mp h
  | three f => cases h

/-- The operand byte of a fetched Immediate instruction is the byte at PC + 1 (R69). -/
theorem memRead_of_fetchInstr_immediate {s : State} {imm : Byte}
    (h : s.fetchInstr.operand = .immediate imm) : s.memRead (s.pc + 1) = imm := by
  have hbytes : s.fetchInstr.operand.bytes = _ := operandBytes_instrOf _ _ _
  rw [h] at hbytes
  exact eq_of_entryBytes_eq_singleton hbytes.symm

/-- EA of an Immediate instruction is the address after its opcode (R69). -/
theorem eaAt_immediate (s : State) {i : Instr} {imm : Byte} (h : i.operand = .immediate imm) :
    eaAt s i = s.pc + 1 := by
  rw [eaAt, h, State.resolve, State.afterFetch_frame, Instr.length, h]
  exact add_sub_assoc s.pc 2 1

/-- Settles O11, by the mode; the fetch read an Immediate operand at its EA. -/
theorem operandIsTheByteAtItsAddress : Obligations.OperandIsTheByteAtItsAddress := by
  unfold Obligations.OperandIsTheByteAtItsAddress
  refine ⟨fun s i h => ?_, fun s i => valueAt_of_memory s, fun s imm h => ?_⟩
  · rw [valueAt, h]
    rfl
  · rw [eaAt_immediate s h]
    refine ⟨rfl, memRead_of_fetchInstr_immediate h, ?_⟩
    rw [valueAt, h]
    rfl

end Sys2Proof.Proofs
end

section
/-! Stores and read-modify-write instructions (41_load_store_transfer R103-R105, 44_shift_rotate
R122-R126, 45_inc_dec R127, R128): one byte at EA, or A. -/

namespace Sys2Proof.Proofs

open Sys2Proof Sys2Proof.Machine Sys2Proof.Stating

/-- A store leaves its byte at its address and every other byte (20_memory R32, R36). -/
theorem stored_memWrite {s : State} (hm : Memory.wf s.mem = true) (a : Word) (v : Byte) :
    Stored s.mem (s.memWrite a v).mem a v :=
  fun b => State.memRead_memWrite hm a b v

theorem rows_sta : Rows .sta (fun b w => [(.indirectX b, 0x81, 6, false),
    (.zeroPage b, 0x85, 3, false), (.absolute w, 0x8D, 4, false), (.indirectY b, 0x91, 6, false),
    (.zeroPageX b, 0x95, 4, false), (.absoluteY w, 0x99, 5, false),
    (.absoluteX w, 0x9D, 5, false)]) := by
  refine rows_of_opcodes (fun _ => rfl) (fun _ _ => rfl) fun o hwf => ?_
  cases o with
  | zeroPage b | zeroPageX b | indirectX b | indirectY b => exact ⟨b, 0, by simp⟩
  | absolute w | absoluteX w | absoluteY w => exact ⟨0, w, by simp⟩
  | _ => cases hwf

theorem rows_stx : Rows .stx (fun b w => [(.zeroPage b, 0x86, 3, false),
    (.absolute w, 0x8E, 4, false), (.zeroPageY b, 0x96, 4, false)]) := by
  refine rows_of_opcodes (fun _ => rfl) (fun _ _ => rfl) fun o hwf => ?_
  cases o with
  | zeroPage b | zeroPageY b => exact ⟨b, 0, by simp⟩
  | absolute w => exact ⟨0, w, by simp⟩
  | _ => cases hwf

theorem rows_sty : Rows .sty (fun b w => [(.zeroPage b, 0x84, 3, false),
    (.absolute w, 0x8C, 4, false), (.zeroPageX b, 0x94, 4, false)]) := by
  refine rows_of_opcodes (fun _ => rfl) (fun _ _ => rfl) fun o hwf => ?_
  cases o with
  | zeroPage b | zeroPageX b => exact ⟨b, 0, by simp⟩
  | absolute w => exact ⟨0, w, by simp⟩
  | _ => cases hwf

/-- Settles O13: each writes its register at EA by one `memWrite` and counts no page cross. -/
theorem storesWriteOneByteAndNoFlag : Obligations.StoresWriteOneByteAndNoFlag := by
  unfold Obligations.StoresWriteOneByteAndNoFlag
  refine ⟨⟨fun s o hm => ?_, rows_sta⟩, ⟨fun s o hm => ?_, rows_stx⟩, fun s o hm => ?_, rows_sty⟩
  · exact ⟨_, stored_memWrite hm (eaAt s (.sta o)) s.a, rfl⟩
  · exact ⟨_, stored_memWrite hm (eaAt s (.stx o)) s.x, rfl⟩
  · exact ⟨_, stored_memWrite hm (eaAt s (.sty o)) s.y, rfl⟩

/-- `shiftRows` lists the modes of the shifts and rotates (40_addressing_modes R82). -/
theorem mem_shiftRows {o : Operand} (ho : o.isShift = true) (acc zp zpX abs absX : Byte) :
    ∃ b w, o ∈ (shiftRows acc zp zpX abs absX b w).map Prod.fst := by
  cases o with
  | accumulator => exact ⟨0, 0, by simp [shiftRows]⟩
  | zeroPage b | zeroPageX b => exact ⟨b, 0, by simp [shiftRows]⟩
  | absolute w | absoluteX w => exact ⟨0, w, by simp [shiftRows]⟩
  | _ => cases ho

/-- `modifyRows` lists the modes of INC and DEC (40_addressing_modes R82). -/
theorem mem_modifyRows {o : Operand} (ho : o.isModify = true) (zp zpX abs absX : Byte) :
    ∃ b w, o ∈ (modifyRows zp zpX abs absX b w).map Prod.fst := by
  cases o with
  | zeroPage b | zeroPageX b => exact ⟨b, 0, by simp [modifyRows]⟩
  | absolute w | absoluteX w => exact ⟨0, w, by simp [modifyRows]⟩
  | _ => cases ho

theorem rows_asl : Rows .asl (shiftRows 0x0A 0x06 0x16 0x0E 0x1E) :=
  rows_of_opcodes (fun _ => rfl) (fun _ _ => rfl) fun _ hwf => mem_shiftRows hwf ..

theorem rows_lsr : Rows .lsr (shiftRows 0x4A 0x46 0x56 0x4E 0x5E) :=
  rows_of_opcodes (fun _ => rfl) (fun _ _ => rfl) fun _ hwf => mem_shiftRows hwf ..

theorem rows_rol : Rows .rol (shiftRows 0x2A 0x26 0x36 0x2E 0x3E) :=
  rows_of_opcodes (fun _ => rfl) (fun _ _ => rfl) fun _ hwf => mem_shiftRows hwf ..

theorem rows_ror : Rows .ror (shiftRows 0x6A 0x66 0x76 0x6E 0x7E) :=
  rows_of_opcodes (fun _ => rfl) (fun _ _ => rfl) fun _ hwf => mem_shiftRows hwf ..

theorem rows_inc : Rows .inc (modifyRows 0xE6 0xF6 0xEE 0xFE) :=
  rows_of_opcodes (fun _ => rfl) (fun _ _ => rfl) fun _ hwf => mem_modifyRows hwf ..

theorem rows_dec : Rows .dec (modifyRows 0xC6 0xD6 0xCE 0xDE) :=
  rows_of_opcodes (fun _ => rfl) (fun _ _ => rfl) fun _ hwf => mem_modifyRows hwf ..

/-- The modes of read-modify-write in memory are not Accumulator (40_addressing_modes R82). -/
theorem ne_accumulator_of_isModify {o : Operand} (h : o.isModify = true) : o ≠ .accumulator := by
  rintro rfl
  cases h

/-- In those modes the operand value is the byte at EA (00_scope R11). -/
theorem valueAt_of_isModify (s : State) {i : Instr} (h : i.operand.isModify = true) :
    valueAt s i = Memory.read s.mem (eaAt s i).toNat := by
  refine valueAt_of_memory s (ne_accumulator_of_isModify h) fun imm himm => ?_
  rw [himm] at h
  cases h

/-- INC and DEC write the changed byte at EA and end in SetNZ of it (R127, R128). -/
theorem modifiesMemory_of_modifyInstr {mk : Operand → Instr} {f : Byte → Byte}
    (hop : ∀ o, (mk o).operand = o) (hcross : ∀ o, countsPageCross (mk o) = false)
    (hexec : ∀ s o, exec (mk o) s = s.modifyInstr (mk o) f) :
    ModifiesMemory mk (fun _ v => f v) (fun s v => nz s (f v)) := by
  intro s o ho hm
  rw [← hop o] at ho
  have hvalue := valueAt_of_isModify s ho
  rw [← hvalue]
  refine ⟨_, _, stored_memWrite hm (eaAt s (mk o)) _, bits_setNZ s _, ?_⟩
  rw [hexec, State.modifyInstr_eq, State.complete_eq, stepCycles, hcross]
  rfl

/-- Settles O24, from the one shape both have. -/
theorem incAndDecChangeOneByteAndNZ : Obligations.IncAndDecChangeOneByteAndNZ := by
  unfold Obligations.IncAndDecChangeOneByteAndNZ
  refine ⟨⟨?inc, rows_inc⟩, ?dec, rows_dec⟩ <;>
    exact modifiesMemory_of_modifyInstr (fun _ => rfl) (fun _ => rfl) fun _ _ => rfl

/-- C from the bit shifted out, then SetNZ of the result: the bits a shift leaves (R122). -/
theorem bits_setNZ_setFlag_carry (s : State) (c : Bool) (v : Byte) :
    Bits ((s.setFlag .carry c).setNZ v).sr (withBit (nz s v) .carry c) := by
  intro f
  refine (bits_setNZ (s.setFlag .carry c) v f).trans ?_
  cases f with
  | negative | zero => rfl
  | _ => exact State.flag_setFlag s .carry _ c

section
variable {mk : Operand → Instr} {sh : Byte → Bool → ShiftResult} {f : State → Byte → Byte}
  {out : Byte → Bool} (hop : ∀ o, (mk o).operand = o)
  (hcycles : ∀ o, baseCycles (mk o) = modifyCycles o)
  (hcross : ∀ o, countsPageCross (mk o) = false)
  (hexec : ∀ s o, exec (mk o) s = s.shiftInstr (mk o) sh)
  (hsh : ∀ s v, sh v (s.flag .carry) = ⟨f s v, out v⟩)
include hop hcross hexec hsh

/-- A shift or rotate of memory (44_shift_rotate R122). -/
theorem modifiesMemory_of_shiftInstr :
    ModifiesMemory mk f (fun s v => withBit (nz s (f s v)) .carry (out v)) := by
  intro s o ho hm
  rw [← hop o] at ho
  have hvalue := valueAt_of_isModify s ho
  have hacc := ne_accumulator_of_isModify ho
  rw [← hvalue]
  refine ⟨_, _, stored_memWrite hm (eaAt s (mk o)) _,
    bits_setNZ_setFlag_carry s (out (valueAt s (mk o))) _, ?_⟩
  rw [hexec, shiftInstr_eq, writeBack_of_ne_accumulator _ _ hacc, State.complete_eq, stepCycles,
    hcross, shiftedAt, hsh]
  rfl

include hcycles

/-- A shift or rotate of A (44_shift_rotate R122). -/
theorem modifiesA_of_shiftInstr :
    ModifiesA mk f (fun s v => withBit (nz s (f s v)) .carry (out v)) := by
  intro s
  have hvalue : valueAt s (mk .accumulator) = s.a := by
    rw [valueAt, hop]
    rfl
  refine ⟨_, bits_setNZ_setFlag_carry s (out s.a) _, ?_⟩
  rw [hexec, shiftInstr_eq, writeBack_of_accumulator _ _ (hop _), State.complete_eq, stepCycles,
    hcross, hcycles, shiftedAt, hvalue, hsh]
  rfl

end

theorem shiftLeft_eq (v : Byte) (c : Bool) :
    shiftLeft v c = ⟨BitVec.ofNat 8 (v.toNat * 2), v.getLsbD 7⟩ := by
  have hres : v <<< 1 = BitVec.ofNat 8 (v.toNat * 2) := by
    apply BitVec.eq_of_toNat_eq
    rw [BitVec.toNat_shiftLeft, BitVec.toNat_ofNat, Nat.shiftLeft_eq]
  rw [shiftLeft, hres]

theorem shiftRight_eq (v : Byte) (c : Bool) :
    shiftRight v c = ⟨BitVec.ofNat 8 (v.toNat / 2), v.getLsbD 0⟩ := by
  have hres : v >>> 1 = BitVec.ofNat 8 (v.toNat / 2) := by
    have hv := v.isLt
    apply BitVec.eq_of_toNat_eq
    rw [BitVec.toNat_ushiftRight, BitVec.toNat_ofNat, Nat.shiftRight_eq_div_pow]
    omega
  rw [shiftRight, hres]

/-- Bit 0 of a doubled byte is free for the incoming C (R125). -/
theorem rotateLeft_eq (v : Byte) (c : Bool) :
    rotateLeft v c = ⟨BitVec.ofNat 8 (v.toNat * 2 + c.toNat), v.getLsbD 7⟩ := by
  have hres : (v <<< 1) ||| BitVec.ofNat 8 c.toNat = BitVec.ofNat 8 (v.toNat * 2 + c.toNat) := by
    revert v c
    decide
  rw [rotateLeft, hres]

/-- Bit 7 of a halved byte is free for the incoming C (R126). -/
theorem rotateRight_eq (v : Byte) (c : Bool) :
    rotateRight v c = ⟨BitVec.ofNat 8 (v.toNat / 2 + 128 * c.toNat), v.getLsbD 0⟩ := by
  have hres : (BitVec.ofNat 8 c.toNat <<< 7) ||| (v >>> 1) =
      BitVec.ofNat 8 (v.toNat / 2 + 128 * c.toNat) := by
    revert v c
    decide
  rw [rotateRight, hres]

/-- Settles O22: ASL and LSR in numbers, on A and on memory. -/
theorem shiftsMoveTheBitOutIntoCarry : Obligations.ShiftsMoveTheBitOutIntoCarry := by
  unfold Obligations.ShiftsMoveTheBitOutIntoCarry
  refine ⟨⟨?_, ?_, rows_asl⟩, ?_, ?_, rows_lsr⟩
  · exact modifiesA_of_shiftInstr (fun _ => rfl) (fun _ => rfl) (fun _ => rfl) (fun _ _ => rfl)
      fun s v => shiftLeft_eq v _
  · exact modifiesMemory_of_shiftInstr (fun _ => rfl) (fun _ => rfl) (fun _ _ => rfl)
      fun s v => shiftLeft_eq v _
  · exact modifiesA_of_shiftInstr (fun _ => rfl) (fun _ => rfl) (fun _ => rfl) (fun _ _ => rfl)
      fun s v => shiftRight_eq v _
  · exact modifiesMemory_of_shiftInstr (fun _ => rfl) (fun _ => rfl) (fun _ _ => rfl)
      fun s v => shiftRight_eq v _

/-- Settles O23: ROL and ROR in numbers, on A and on memory. -/
theorem rotatesShiftTheOldCarryIn : Obligations.RotatesShiftTheOldCarryIn := by
  unfold Obligations.RotatesShiftTheOldCarryIn
  refine ⟨⟨?_, ?_, rows_rol⟩, ?_, ?_, rows_ror⟩
  · exact modifiesA_of_shiftInstr (fun _ => rfl) (fun _ => rfl) (fun _ => rfl) (fun _ _ => rfl)
      fun s v => rotateLeft_eq v _
  · exact modifiesMemory_of_shiftInstr (fun _ => rfl) (fun _ => rfl) (fun _ _ => rfl)
      fun s v => rotateLeft_eq v _
  · exact modifiesA_of_shiftInstr (fun _ => rfl) (fun _ => rfl) (fun _ => rfl) (fun _ _ => rfl)
      fun s v => rotateRight_eq v _
  · exact modifiesMemory_of_shiftInstr (fun _ => rfl) (fun _ => rfl) (fun _ _ => rfl)
      fun s v => rotateRight_eq v _

end Sys2Proof.Proofs
end

section
/-! ADC, SBC and the compares (42_arithmetic R113-R115, 46_compare R133-R136): the flags they write and
the sum that DECIMAL_MODE selects. -/

namespace Sys2Proof.Proofs

open Sys2Proof Sys2Proof.Machine Sys2Proof.Stating

theorem rows_cmp : Rows .cmp (readRows 0xC9 0xC5 0xD5 0xCD 0xDD 0xD9 0xC1 0xD1) :=
  rows_of_opcodes (fun _ => rfl) (fun _ _ => rfl) fun _ hwf => mem_readRows hwf ..

theorem rows_adc : Rows .adc (readRows 0x69 0x65 0x75 0x6D 0x7D 0x79 0x61 0x71) :=
  rows_of_opcodes (fun _ => rfl) (fun _ _ => rfl) fun _ hwf => mem_readRows hwf ..

theorem rows_sbc : Rows .sbc (readRows 0xE9 0xE5 0xF5 0xED 0xFD 0xF9 0xE1 0xF1) :=
  rows_of_opcodes (fun _ => rfl) (fun _ _ => rfl) fun _ hwf => mem_readRows hwf ..

/-- `indexRows` lists the modes of CPX and CPY (40_addressing_modes R82). -/
theorem mem_indexRows {o : Operand} (ho : o.isCompareIndex = true) (imm zp abs : Byte) :
    ∃ b w, o ∈ (indexRows imm zp abs b w).map Prod.fst := by
  cases o with
  | immediate b | zeroPage b => exact ⟨b, 0, by simp [indexRows]⟩
  | absolute w => exact ⟨0, w, by simp [indexRows]⟩
  | _ => cases ho

theorem rows_cpx : Rows .cpx (indexRows 0xE0 0xE4 0xEC) :=
  rows_of_opcodes (fun _ => rfl) (fun _ _ => rfl) fun _ hwf => mem_indexRows hwf ..

theorem rows_cpy : Rows .cpy (indexRows 0xC0 0xC4 0xCC) :=
  rows_of_opcodes (fun _ => rfl) (fun _ _ => rfl) fun _ hwf => mem_indexRows hwf ..

/-- Settles O26: C is the comparison, and SetNZ of the difference leaves the bits that
`bits_setNZ_setFlag_carry` names. -/
theorem comparesSetCarryWhenNotBelow : Obligations.ComparesSetCarryWhenNotBelow := by
  unfold Obligations.ComparesSetCarryWhenNotBelow
  refine ⟨⟨fun s o => ?_, rows_cmp⟩, ⟨fun s o => ?_, rows_cpx⟩, fun s o => ?_, rows_cpy⟩
  · exact ⟨_, bits_setNZ_setFlag_carry s _ (s.a - valueAt s (.cmp o)), rfl⟩
  · exact ⟨_, bits_setNZ_setFlag_carry s _ (s.x - valueAt s (.cpx o)), rfl⟩
  · exact ⟨_, bits_setNZ_setFlag_carry s _ (s.y - valueAt s (.cpy o)), rfl⟩

/-- The four flags that ADC and SBC write (42_arithmetic R113, R114). -/
theorem bits_setAlu (s : State) (r : AluResult) :
    Bits (s.setAlu r).sr (withBit (withBit (withBit (withBit s.flag .carry r.c) .overflow r.v)
      .negative r.n) .zero r.z) :=
  fun f => s.flag_setAlu r f

/-- The sum that D and DECIMAL_MODE select (42_arithmetic R113, R115). -/
theorem adcResult_eq (s : State) (m : Byte) :
    s.adcResult m = if s.flag .decimal = false ∨ s.params.decimalMode = .binary
      then addBinary s.a m (s.flag .carry)
      else if s.params.decimalMode = .nmosBcd then nmosDecimalAdc s.a m (s.flag .carry)
      else Config.decimalAdc s.a m (s.flag .carry) := by
  rw [State.adcResult]
  cases s.flag .decimal with
  | false => simp
  | true => cases s.params.decimalMode <;> simp [decimalAdc]

/-- The difference that D and DECIMAL_MODE select (42_arithmetic R114, R115). -/
theorem sbcResult_eq (s : State) (m : Byte) :
    s.sbcResult m = if s.flag .decimal = false ∨ s.params.decimalMode = .binary
      then addBinary s.a (~~~m) (s.flag .carry)
      else if s.params.decimalMode = .nmosBcd then nmosDecimalSbc s.a m (s.flag .carry)
      else Config.decimalSbc s.a m (s.flag .carry) := by
  rw [State.sbcResult]
  cases s.flag .decimal with
  | false => simp
  | true => cases s.params.decimalMode <;> simp [decimalSbc]

/-- Settles O17: ADC writes A and the flags of `adcResult`, which `adcResult_eq` gives by mode. -/
theorem adcWritesAAndFourFlags : Obligations.AdcWritesAAndFourFlags := by
  unfold Obligations.AdcWritesAAndFourFlags
  refine ⟨rows_adc, fun s o => ?_⟩
  intro m r
  have hr : r = s.adcResult m := (adcResult_eq s m).symm
  rw [hr]
  exact ⟨_, bits_setAlu s _, rfl⟩

/-- Settles O18: SBC writes A and the flags of `sbcResult`, which `sbcResult_eq` gives by mode. -/
theorem sbcWritesAAndFourFlags : Obligations.SbcWritesAAndFourFlags := by
  unfold Obligations.SbcWritesAAndFourFlags
  refine ⟨rows_sbc, fun s o => ?_⟩
  intro m r
  have hr : r = s.sbcResult m := (sbcResult_eq s m).symm
  rw [hr]
  exact ⟨_, bits_setAlu s _, rfl⟩

end Sys2Proof.Proofs
end

section
/-! Arithmetic over the integers (42_arithmetic R112, R114) and the NMOS decimal reference by digits
(R116, R117). -/

namespace Sys2Proof.Proofs

open Sys2Proof Sys2Proof.Machine Sys2Proof.Stating

theorem bit7_eq (v : Byte) : v.getLsbD 7 = decide (128 ≤ v.toNat) :=
  (BitVec.msb_eq_getLsbD_last v).symm.trans (BitVec.msb_eq_decide v)

theorem toInt_byte (v : Byte) :
    v.toInt = if 128 ≤ v.toNat then (v.toNat : Int) - 256 else v.toNat := by
  rw [BitVec.toInt_eq_toNat_cond]
  split <;> split <;> omega

theorem toNat_addBinary_res (a m : Byte) (c : Bool) :
    (addBinary a m c).res.toNat = (a.toNat + m.toNat + c.toNat) % 256 :=
  BitVec.toNat_ofNat _ 8

/-- V is signed overflow of the sum (42_arithmetic R112). -/
theorem addBinary_v_iff (a m : Byte) (c : Bool) :
    (addBinary a m c).v = true ↔
      ¬ (-128 ≤ a.toInt + m.toInt + c.toNat ∧ a.toInt + m.toInt + c.toNat ≤ 127) := by
  have hv : (addBinary a m c).v = _ := overflowMask_bit7 a m (addBinary a m c).res
  have ha := a.isLt
  have hm := m.isLt
  have hc := c.toNat_le
  rw [hv, bit7_eq, bit7_eq, bit7_eq, toNat_addBinary_res, toInt_byte, toInt_byte]
  simp only [Bool.and_eq_true, decide_eq_true_eq, decide_eq_decide, ne_eq]
  split <;> split <;> omega

/-- The complement of a byte as a signed number: `a + ~m + c` is `a - m - (1 - c)` (R114, C7). -/
theorem toInt_not_byte (m : Byte) : (~~~m).toInt = -m.toInt - 1 := by
  have hm := m.isLt
  rw [toInt_byte, toInt_byte, BitVec.toNat_not]
  split <;> split <;> omega

/-- Settles O16: V is `addBinary_v_iff`, for SBC of the complement; result and C are the nine-bit
sum's. -/
theorem binaryArithmeticAgreesWithTheIntegers :
    Obligations.BinaryArithmeticAgreesWithTheIntegers := by
  unfold Obligations.BinaryArithmeticAgreesWithTheIntegers
  intro a m c
  have ha := a.isLt
  have hm := m.isLt
  have hc := c.toNat_le
  refine ⟨addBinary_v_iff a m c, ?_, ?_, ?_⟩
  · rw [addBinary_v_iff, toInt_not_byte]
    omega
  · rw [toNat_addBinary_res, BitVec.toNat_not]
    omega
  · rw [addBinary_c, BitVec.toNat_not, decide_eq_true_iff]
    omega

/-- Adjusting a digit sum by 6 carries out of the digit exactly when the sum is above 9 (R116). -/
theorem fifteen_lt_adjust_iff (n : Nat) : 0x0F < (if 0x09 < n then n + 0x06 else n) ↔ 9 < n := by
  split <;> omega

/-- The low digit sum of the decimal addition (R116). -/
def lowSum (a m : Byte) (c : Bool) : Nat := a.toNat % 16 + m.toNat % 16 + c.toNat

/-- The high digit sum, with the low digit's carry, before its adjustment (R116). -/
def highSum (a m : Byte) (c : Bool) : Nat :=
  a.toNat / 16 + m.toNat / 16 + if 9 < lowSum a m c then 1 else 0

/-- The decimal addition by its digit sums (R116). -/
theorem nmosDecimalAdc_eq (a m : Byte) (c : Bool) :
    nmosDecimalAdc a m c =
      { res := BitVec.ofNat 8
          ((if 9 < highSum a m c then highSum a m c + 6 else highSum a m c) * 16 +
            (if 9 < lowSum a m c then lowSum a m c + 6 else lowSum a m c) % 16)
        c := decide (9 < highSum a m c)
        v := (~~~(a ^^^ m) &&& (a ^^^ BitVec.ofNat 8 (highSum a m c * 16))).getLsbD 7
        n := (highSum a m c).testBit 3
        z := decide ((a.toNat + m.toNat + c.toNat) % 256 = 0) } := by
  simp only [nmosDecimalAdc, gt_iff_lt, fifteen_lt_adjust_iff]
  rfl

/-- Bit 7 of the high digit's place is bit 3 of the digit sum (R116). -/
theorem bit7_ofNat_mul_16 (n : Nat) : (BitVec.ofNat 8 (n * 16)).getLsbD 7 = n.testBit 3 := by
  rw [BitVec.getLsbD_ofNat, ← Nat.shiftLeft_eq n 4, Nat.testBit_shiftLeft]
  rfl

theorem addBinary_z (a m : Byte) (c : Bool) :
    (addBinary a m c).z = decide ((a.toNat + m.toNat + c.toNat) % 256 = 0) := by
  have hz : (addBinary a m c).z = ((addBinary a m c).res == 0) := rfl
  rw [hz, Bool.beq_eq_decide_eq, ← toNat_addBinary_res]
  exact decide_eq_decide.mpr BitVec.toNat_inj.symm

/-- Two digits put into one byte. -/
theorem toNat_ofNat_digits (hi lo : Int) :
    ((BitVec.ofNat 8 ((hi % 16).toNat * 16 + (lo % 16).toNat)).toNat : Int) =
      hi % 16 * 16 + lo % 16 := by
  rw [BitVec.toNat_ofNat]
  omega

/-- The low digit difference of the decimal subtraction (R117). -/
def lowDiff (a m : Byte) (c : Bool) : Int := a.toNat % 16 - m.toNat % 16 - (1 - c.toNat)

/-- The high digit difference, with the low digit's borrow, before its adjustment (R117). -/
def highDiff (a m : Byte) (c : Bool) : Int :=
  a.toNat / 16 - m.toNat / 16 - if lowDiff a m c < 0 then 1 else 0

/-- The decimal subtraction by its digit differences (R117). -/
theorem toNat_nmosDecimalSbc_res (a m : Byte) (c : Bool) :
    ((nmosDecimalSbc a m c).res.toNat : Int) =
      (if highDiff a m c < 0 then highDiff a m c - 6 else highDiff a m c) % 16 * 16 +
        (if lowDiff a m c < 0 then lowDiff a m c - 6 else lowDiff a m c) % 16 := by
  have hlow : ((a.toNat % 16 : Nat) - (m.toNat % 16 : Nat) - (1 - c.toNat : Nat) : Int) =
      lowDiff a m c := by
    cases c <;> rfl
  have hhigh : (if lowDiff a m c < 0 then ((a.toNat / 16 : Nat) - (m.toNat / 16 : Nat) : Int) - 1
      else (a.toNat / 16 : Nat) - (m.toNat / 16 : Nat)) = highDiff a m c := by
    rw [highDiff]
    split
    · rfl
    · exact (sub_zero _).symm
  simp only [nmosDecimalSbc, hlow, hhigh, toNat_ofNat_digits]

/-- A sum of two decimal digits and a carry, adjusted: its decimal digit and its decimal carry
(R116). -/
theorem adjust_digit {n : Nat} (h : n ≤ 19) :
    ∃ k d, k ≤ 1 ∧ d ≤ 9 ∧ n = 10 * k + d ∧ (if 9 < n then n + 6 else n) % 16 = d ∧
      (if 9 < n then 1 else 0) = k := by
  by_cases hn : 9 < n
  · rw [if_pos hn, if_pos hn]
    exact ⟨1, n - 10, by omega, by omega, by omega, by omega, rfl⟩
  · rw [if_neg hn, if_neg hn]
    exact ⟨0, n, by omega, by omega, by omega, by omega, rfl⟩

/-- The digit rules of the addition on decimal digits: the sum modulo 100 and its carry (R116). -/
theorem decimalDigits_add {al ah ml mh c lo hi r : Nat} (ha : ah ≤ 9 ∧ al ≤ 9)
    (hm : mh ≤ 9 ∧ ml ≤ 9)
    (hc : c ≤ 1) (hlo : lo = al + ml + c) (hhi : hi = ah + mh + if 9 < lo then 1 else 0)
    (hr : r = ((if 9 < hi then hi + 6 else hi) * 16 + (if 9 < lo then lo + 6 else lo) % 16) % 256) :
    (r / 16 ≤ 9 ∧ r % 16 ≤ 9) ∧
      r / 16 * 10 + r % 16 = (ah * 10 + al + (mh * 10 + ml) + c) % 100 ∧
      (9 < hi ↔ 100 ≤ ah * 10 + al + (mh * 10 + ml) + c) := by
  obtain ⟨k, d, hk, hd, hlo', hadjlo, hcarry⟩ := adjust_digit (n := lo) (by omega)
  rw [hcarry] at hhi
  obtain ⟨k', d', hk', hd', hhi', hadjhi, -⟩ := adjust_digit (n := hi) (by omega)
  have hr' : r = d' * 16 + d := by omega
  clear hr hadjlo hadjhi hcarry
  omega

/-- The digit rules of the subtraction on decimal digits: the difference modulo 100 (R117). -/
theorem decimalDigits_sub {al ah ml mh r : Nat} {c lo hi : Int} (ha : ah ≤ 9 ∧ al ≤ 9)
    (hm : mh ≤ 9 ∧ ml ≤ 9) (hc : 0 ≤ c ∧ c ≤ 1) (hlo : lo = al - ml - (1 - c))
    (hhi : hi = ah - mh - if lo < 0 then 1 else 0)
    (hr : (r : Int) =
      (if hi < 0 then hi - 6 else hi) % 16 * 16 + (if lo < 0 then lo - 6 else lo) % 16) :
    (r / 16 ≤ 9 ∧ r % 16 ≤ 9) ∧
      ((r / 16 * 10 + r % 16 : Nat) : Int) =
        ((ah * 10 + al : Nat) - (mh * 10 + ml : Nat) - (1 - c)) % 100 := by
  split at hhi <;> split at hr <;> omega

/-- Settles O19: both algorithms by their digits; on valid BCD the digit rules are those of decimal
numbers. -/
theorem nmosDecimalFollowsTheDigitRules : Obligations.NmosDecimalFollowsTheDigitRules := by
  unfold Obligations.NmosDecimalFollowsTheDigitRules
  intro a m c
  have hadc := nmosDecimalAdc_eq a m c
  have hc := c.toNat_le
  have hres : (nmosDecimalAdc a m c).res.toNat = _ :=
    (congrArg (fun r => r.res.toNat) hadc).trans (BitVec.toNat_ofNat _ 8)
  have hcarry : (nmosDecimalAdc a m c).c = decide (9 < highSum a m c) := congrArg AluResult.c hadc
  have hsign : (nmosDecimalAdc a m c).n = (highSum a m c).testBit 3 := congrArg AluResult.n hadc
  refine ⟨⟨hres, hcarry, ?_, ?_, ?_⟩, ⟨toNat_nmosDecimalSbc_res a m c, rfl⟩, fun ha hm => ?_⟩
  · exact hsign.trans (Nat.testBit_eq_decide_div_mod_eq)
  · rw [hsign, ← bit7_ofNat_mul_16, ← overflowMask_bit7, hadc]
  · rw [addBinary_z, hadc]
  · obtain ⟨hbcd, hsum, hhundred⟩ := decimalDigits_add ha hm hc rfl rfl hres
    obtain ⟨hbcd', hdiff⟩ := decimalDigits_sub ha hm ⟨by omega, by omega⟩ rfl rfl
      (toNat_nmosDecimalSbc_res a m c)
    exact ⟨hbcd, hsum, hcarry.trans (decide_eq_decide.mpr hhundred), hbcd', hdiff⟩

end Sys2Proof.Proofs
end
